-- ==== Sys2Proof/Word.lean ====
section
/-! DEFINITION. The word types of the FD96 and their plainest arithmetic. -/

namespace Sys2Proof

/-- One byte. -/
abbrev Byte := BitVec 8

/-- One 32-bit CSR word (R6). -/
abbrev Word := BitVec 32

/-- A master ID (Table 14.2). -/
abbrev MasterId := BitVec 6

/-- A 48-bit local address (R347). -/
abbrev Addr := BitVec 48

/-- System time: 64 bits of nanoseconds above an 8-bit fraction in units of 1/256 ns. -/
abbrev Stamp := BitVec 72

end Sys2Proof
end

