-- ==== Sys2Proof/Syntax.lean ====
section
/-! DEFINITION. The commands the block takes: one constructor of `Instr` per row of the operation table,
and the operand types those rows carry (network packets, span messages, codewords, PCIe requests). -/

namespace Sys2Proof

/-- The network error codes 0 to 10 (Table 7.4). -/
inductive Err where
  | ok | accessDenied | decode | bankOff | denGone | hostTimeout | hostError | remoteUnreachable
  | poison | busy | queueOff
deriving DecidableEq, Repr

/-- The fields of a packet header (Table 7.3); the reserved bits and the copy are derived. -/
structure Hdr where
  opc : BitVec 4
  epoch : Bool
  guar : Bool
  src : MasterId
  tag : BitVec 6
  dstDev : Byte
  srcDev : Byte
  addr : Addr
  /-- Length in bytes, minus 1. -/
  len : BitVec 12
  err : BitVec 4
  flow : Byte
deriving DecidableEq, Repr

/-- A request or response: a header and the bytes of its data flits (R185). -/
structure Packet where
  hdr : Hdr
  data : List Byte
deriving DecidableEq, Repr

/-- Bits of a packet's flits that flip on its way, of the 512 bits and the 64 parity bits above them; flit 0 is the header
(R187, R188). -/
abbrev FlitFlips := List (Nat × BitVec 576)

/-- The nine clock domains, in the order of `CLK_STATUS` (Table 2.8). -/
inductive Domain where
  | tmb | noc | fab | cfg | mgt | hst | mem | lnk | aon
deriving DecidableEq, Repr

/-- A MARKER (Table 10.3). -/
structure Marker where
  master : Byte
  hops : Byte
  skipped : Bool
  tick : BitVec 48
  edge : Stamp
  tx : Stamp
  period : BitVec 24
  holdLeft : BitVec 16
deriving DecidableEq, Repr

/-- What a NOTICE announces (Table 10.3). -/
inductive NoticeKind where
  | hold (edge : BitVec 64) (count : BitVec 16) (indef : Bool)
  | period (tick : BitVec 48) (period : BitVec 24)
deriving DecidableEq, Repr

/-- A LINK_INFO (Table 10.3). -/
structure LinkInfo where
  dev : Byte
  link : BitVec 3
  width : BitVec 2
  part : BitVec 16
  version : Byte
  caps : BitVec 3
deriving DecidableEq, Repr

/-- An ELECT message (Table 10.3). -/
structure Elect where
  cand : Byte
  auto : Bool
  valid : Bool
  hops : Byte
deriving DecidableEq, Repr

/-- A span control message (Table 10.3). -/
inductive SpanMsg where
  | linkInfo (i : LinkInfo)
  | elect (e : Elect)
  | marker (m : Marker)
  | delayReq (id : Byte) (tx : Stamp)
  | delayRsp (id : Byte) (rx tx : Stamp)
  | holdReq (origin : Byte) (count : BitVec 16) (indef : Bool)
  | notice (master : Byte) (id : BitVec 16) (kind : NoticeKind)
  | halt (origin : Byte) (haltId : Byte) (mask : Byte) (hold : Bool)
  | down (cause : BitVec 4)
  /-- A TYPE that Table 10.3 does not list. -/
  | reserved (bits : BitVec 512)
deriving DecidableEq, Repr

/-- A flit's class on a span link (R259). -/
inductive FlitClass where
  | req | rsp | guar
deriving DecidableEq, Repr

/-- One network flit (R185, R187) as a span link carries it. -/
structure Flit where
  cls : FlitClass
  last : Bool
  epoch : Bool
  bits : BitVec 512
deriving DecidableEq, Repr

/-- A sequenced item of a codeword (R259). -/
inductive SeqItem where
  | flit (f : Flit)
  | ctl (m : SpanMsg)
deriving DecidableEq, Repr

/-- A codeword (R258, Table 10.2): the link slot's fields and the items of slots 1 to 9. -/
structure Codeword where
  num : BitVec 12
  seq : BitVec 16
  items : List SeqItem
  timing : Option SpanMsg
  ack : BitVec 16
  nak : Bool
  crReq : Byte
  crRsp : Byte
  crGuar : Byte
deriving DecidableEq, Repr

/-- What the receiver's RS decoder makes of a codeword (R258, R261). -/
inductive RsResult where
  | clean
  /-- Decoded after correcting symbols. -/
  | corrected
  | failed
deriving DecidableEq, Repr

/-- What has struck one word of a CRAM frame since its last visit (R157, R167, R169): the bits that have flipped, of the 72,
and whether the read-back after a correction shows an error again. -/
structure Upset where
  word : Fin 64
  bits : BitVec 72
  sticks : Bool
deriving DecidableEq, Repr

/-- The erroneous symbols in the burst that reads one 64 B line: the beat, 0 to 15, and the 4-bit symbol of its 40 bits, 0 to 9
(R225, R229). -/
abbrev LineRead := List (Fin 16 × Fin 10)

/-- What the den loader's fetch and readback gave (R146, R147). -/
structure LoadOutcome where
  /-- The network error of the failing fetch, or OK. -/
  fetch : Err
  /-- The plane image's bytes, from a source outside the Burrow and DDR. -/
  bytes : List Byte
  /-- Bits that flipped in words of the plane between their writing and the readback. -/
  upsets : List (Fin 196608 × BitVec 72)
deriving DecidableEq, Repr

/-- The outcome of the flash side of a re-fetch (R177). -/
inductive RefetchOutcome where
  /-- The image CRC in the slot header, and the frame's words. -/
  | read (imageCrc : Word) (words : List (BitVec 64))
  | flash
deriving DecidableEq, Repr

/-- A leaky bucket of the device (R222). -/
inductive BucketId where
  | burrow (b : Fin 32) | sett (d : Fin 48) | cram | ddr (c : Fin 4)
deriving DecidableEq, Repr

/-- A bucket configuration register. -/
inductive BucketReg where
  | burrow | sett | cram | ddr (c : Fin 4)
deriving DecidableEq, Repr

/-- A point of the network where a packet waits (R199). -/
inductive ArbPoint where
  | router (r : Fin 64) (input : Fin 8) (rsp : Bool)
  | station (ring : Fin 4) (station : Fin 48)
deriving DecidableEq, Repr

/-- The place a host memory request names: a BAR (0, 2 or 4) and an offset (Table 12.2). -/
inductive Bar where
  | bar0 | bar2 | bar4
deriving DecidableEq, Repr

/-- A configuration request: a read of a word at an offset or of a half of the Device Serial Number, or a write of a field, as
far as R303 to R319 give it an effect. -/
inductive CfgReq where
  | read (off : BitVec 12)
  | readSerial (high : Bool)
  | none
  | bar (i : Fin 6) (v : Word)
  | aerSeverity (v : Word)
  | bme (v : Bool)
  | cplTimeout (value : BitVec 4) (disable : Bool)
  | msix (enable mask : Bool)
  | power (d3hot : Bool)
  | aerClear (mask : Word)
  | l1 (deepest : BitVec 2)
deriving DecidableEq, Repr

/-- A completion's status (R310). -/
inductive CplStatus where
  | sc | scPoisoned | urOrCa
deriving DecidableEq, Repr

/-- The link-layer errors of Table 12.6 (R318). -/
inductive HostErr where
  | malformed | overflow | flowControl | dataLink
  | receiver | badTlp | badDllp | replayTimeout | replayRollover
deriving DecidableEq, Repr

/-- A MAC queue's direction. -/
inductive Dir where
  | tx | rx
deriving DecidableEq, Repr

/-- A command: a write or read of a register, an operation of the network, a link or a port, or an event. -/
inductive Instr where
  -- CSR access
  | csrWrite (m : MasterId) (addr : Addr) (len : BitVec 12) (val : Word)
  | rcRead (m : MasterId) (addr : Addr)
  | latchedLoRead (m : MasterId) (addr : Addr)
  -- the tick
  | tickEdge
  | tickDone (src : Fin 49)
  | tbsDoneBrkb (m : MasterId) (val : Word)
  | electionClose
  | tbsNoMasterRepeat
  | actLockRead (m : MasterId)
  | actLockTimeout
  | actStageWrite (m : MasterId) (w : Fin 4) (val : Word)
  | arm (m : MasterId)
  | cancel (m : MasterId) (index gen : Byte)
  | query (m : MasterId) (index : Byte)
  | actCmdRelease (m : MasterId)
  | trigAction (index : Byte)
  | trigPulseEnd (pin : Fin 16)
  | eventAction (index : Byte)
  | tbsHoldWrite (m : MasterId) (val : Word)
  | heldHoldRelease
  | holdover
  -- clocks
  | syncEdge
  | owlAonWindow (count : BitVec 16)
  | owlRefWindow (src : Fin 3) (count : BitVec 16)
  | owlMissingEdge (src : Fin 3)
  | pllLock (src : Fin 64)
  | pllLoss (src : Fin 64)
  | resetRestart
  | holdExit
  | crossingWakeRequest (d : Domain)
  | domainIdleRegate (d : Domain)
  | avsFrameDone (ok : Bool) (mv : BitVec 16)
  | avsVoltagePoll
  | opSettleDone
  | opChangeTimeout
  -- power
  /-- The voltages of the rail rows are in mV at the monitor of Table 3.3. -/
  | vccAonGood (mv : Nat)
  | vccAonLost (mv : Nat)
  | railGood (rail : Fin 23) (mv : Nat)
  | railLost (rail : Fin 7) (mv : Nat)
  | vccoLost (bank : Fin 16) (mv : Nat)
  | vccoReturn (bank : Fin 16) (mv : Nat)
  | powerSwitchStep
  | lockComplete
  | systemSectionRead (bytes : List Byte)
  | slotTableRead (sfdp primary backup : List Byte)
  | slotReadComplete (flashOk : Bool) (image : List Byte)
  | verifyChecksDone (readbackOk : Bool) (vcco : List (BitVec 3))
  | ddrTrainingDone (ch : Fin 4) (ok : Bool)
  | verifyEnd
  | releaseGroup
  | pwrModeReqWrite (m : MasterId) (val : Word)
  | wakeSource (src : Fin 6)
  | wakeTimerArm (m : MasterId) (val : Word)
  | wakeTimerExpire
  | pwrStopReq (m : MasterId) (val : Word)
  | stepGrant
  | stepDepthWrite (m : MasterId) (val : Word)
  | powerWindow (deciwatts : BitVec 16)
  | pinResetAssert
  | pinResetRelease
  -- I/O
  | trigInputEdge (pin : Fin 16) (rising : Bool)
  | trigCurrentLimit (pin : Fin 16)
  | settEccError (den : Fin 48) (sbe : Nat) (dbe : Bool)
  -- dens
  | denLoadStart (m : MasterId) (val : Word)
  | denLoadAbort (m : MasterId) (val : Word)
  | denLoadComplete (out : LoadOutcome)
  | denOutboundRequest (den : Fin 48) (p : Packet)
  | denInboundRequest (den : Fin 48) (p : Packet)
  | denInboundResponse (den : Fin 48) (p : Packet) (err : Err) (data : List Byte)
  | denRspTimeout (den : Fin 48) (p : Packet)
  | drainWindowOpen (den : Fin 48)
  | freezePlaneActive (den : Fin 48)
  | freezeResetRelease (den : Fin 48)
  | freezeEnd (den : Fin 48)
  -- the Badger
  | badgerFrame (words : Nat) (mapFlips : BitVec 72) (upsets : List Upset)
  | reloadStart
  | reloadComplete (out : LoadOutcome)
  | cfgRefetch (m : MasterId) (val : Word)
  | refetchComplete (out : RefetchOutcome)
  | lapWatchExpire
  | bucketLeakTick (b : BucketId)
  | bucketCfgWrite (m : MasterId) (r : BucketReg) (val : Word)
  -- the network
  | netRequestInject (p : Packet)
  | netRequestTarget (p : Packet) (remote : Bool) (flips : FlitFlips) (tcmBad : Bool)
  | netResponseDeliver (p : Packet) (flips : FlitFlips)
  | slotFrameStart (ring : Fin 4)
  | validate (m : MasterId) (val : Word)
  | validateDone
  | vnxSlotWrite (m : MasterId) (addr : Addr) (val : Word)
  | epochDrainEnd (ring : Fin 4)
  | arbBoost (w : ArbPoint)
  | creditReturn (sender receiver : Fin 160) (rsp : Bool)
  -- the Burrow
  | bankWordAccess (b : Fin 32) (sbe dbe : BitVec 4)
  | brwRemap (m : MasterId) (val : Word)
  | brwRemapCopyDone
  | brwBankCtrlWrite (m : MasterId) (b : Fin 32) (val : Word)
  | bankClearStart
  | bankClearDone (b : Fin 32)
  | bankScrubRead (b : Fin 32) (sbe dbe : BitVec 4)
  -- DDR5 and the decoupling queues
  | ddrPortRequest (p : Packet)
  | ddrReadReturn (p : Packet) (lines : List LineRead)
  | patrolRead (c : Fin 4) (line : LineRead)
  | memRemap (m : MasterId) (val : Word)
  | memRemapCopyDone (line : LineRead)
  | memRetireHint (m : MasterId) (val : Word)
  | dqPush (p : Packet)
  | dqPushComplete (q : Fin 64)
  | dqWait (p : Packet)
  | dqDrop (p : Packet)
  | dqCmdDrop (m : MasterId) (q : Fin 64) (val : Word)
  | dqStaleTimeout (q : Fin 64)
  | dqCfgWrite (m : MasterId) (q : Fin 64) (val : Word)
  -- lanes and span links
  | lanTxfirWrite (m : MasterId) (lane : Fin 96) (val : Word)
  | laneTrained (lane : Fin 96)
  | laneTrainTimeout (lane : Fin 96)
  | laneTrainRetry (lane : Fin 96)
  | eyeScan (m : MasterId) (lane : Fin 96) (val : Word)
  | eyeScanDone (lane : Fin 96) (mismatches : Nat)
  | spanAlignDone (k : Fin 8) (skew : Nat)
  | linkInfo (k : Fin 8) (i : LinkInfo)
  | codewordTx (k : Fin 8)
  | codewordRx (k : Fin 8) (rs : RsResult) (payload : BitVec 5140) (frac : Byte)
  | replayTimeout (k : Fin 8)
  | elect (k : Fin 8) (e : Elect)
  | electSend
  | marker (k : Fin 8) (mk : Marker) (rx : Stamp)
  | delayReq (k : Fin 8) (id : Byte) (tx rx : Stamp)
  | delayRsp (k : Fin 8) (id : Byte) (t2 t3 t4 : Stamp)
  | delayReqSend (k : Fin 8)
  | holdReq (k : Fin 8) (origin : Byte) (count : BitVec 16) (indef : Bool)
  | notice (k : Fin 8) (master : Byte) (id : BitVec 16) (kind : NoticeKind)
  | spanHalt (k : Fin 8) (origin haltId mask : Byte) (hold : Bool)
  | down (k : Fin 8) (cause : BitVec 4)
  | upstreamMarkerTimeout
  | codewordLockLost (k : Fin 8)
  | spnLinkDisable (m : MasterId) (k : Fin 8) (val : Word)
  | spnLinkEnable (m : MasterId) (k : Fin 8) (val : Word)
  | spanPortRequest (p : Packet) (via : Option (Fin 8))
  -- Ethernet
  | macTxControlWord (p : Packet)
  | macTxData (p : Packet)
  | macFrameTxStart (mac : Fin 24) (port : Fin 4)
  | macFrameTxEnd (mac : Fin 24) (port : Fin 4)
  | macFrameRx (mac : Fin 24) (port : Fin 4) (frame : List Byte) (ce ue : Nat)
  | macControlFrameRx (mac : Fin 24) (port : Fin 4) (frame : List Byte) (ce ue : Nat)
  | rxWait (p : Packet)
  | rxDrop (p : Packet)
  | macRxqStale (mac : Fin 24) (q : Fin 16)
  | macQTailWrite (m : MasterId) (mac : Fin 24) (dir : Dir) (q : Fin 16) (val : Word)
  | macDescProcess (mac : Fin 24) (dir : Dir) (q : Fin 16) (desc buf : Err × List Byte)
  | pauseTimerExpire (mac : Fin 24) (port : Fin 4) (cls : Option (Fin 8))
  | pauseRepeat (mac : Fin 24) (port : Fin 4) (cls : Option (Fin 8))
  | macTxtsPop (m : MasterId) (mac : Fin 24) (port : Fin 4)
  | macPortLinkChange (mac : Fin 24) (port : Fin 4) (up localFault remoteFault : Bool)
  | macEnableWrite (m : MasterId) (addr : Addr) (val : Word)
  -- the PCI Express endpoint
  | hostMemWrite (bar : Bar) (off : Nat) (bytes : List (Option Byte)) (poisoned : Bool)
  | hostMemRead (bar : Bar) (off : Nat) (len : Nat) (hostTag : BitVec 14)
  | hostConfigRequest (w : CfgReq) (hostTag : BitVec 14)
  | hostInboundAnswer (tag : BitVec 6)
  | hostInLimitExpire (tag : BitVec 6)
  | hostOutboundRequest (p : Packet)
  | hostCompletion (tag : BitVec 14) (status : CplStatus) (data : List Byte)
  | completionTimeout (tag : BitVec 14)
  | hostTagFree (tag : BitVec 14)
  | hotReset
  | hostLinkUp (rate : BitVec 3) (width : BitVec 4) (flit : Bool)
  | elbWake (val : Word)
  | hstMsixSend (m : MasterId) (val : Word)
  | msixMessage (v : Fin 2048)
  | mbDoorbell (val : Word)
  | mbReqWrite (off : BitVec 12) (val : Word)
  | mbTake (m : MasterId) (val : Word)
  | mbDone (m : MasterId) (val : Word)
  | ping
  | info
  | read (err : Err) (data : List Byte)
  | write (err : Err)
  | log
  | ledger
  | haltB
  | resumeB
  -- Brock cores
  | coreNetworkAccess (p : Fin 2) (addr : Word) (store : Bool) (bytes : BitVec 3) (rd : BitVec 5) (val : Word)
  | mtimerInterrupt (p : Fin 2)
  | coreDoorbell (p : Fin 2) (val : Word)
  | coreMismatch (p : Fin 2)
  | delayParityError (p : Fin 2)
  | comparatorSelfTest (p : Fin 2) (detected : Bool)
  | tcmParityError (p : Fin 2) (off : BitVec 20)
  | pairRestartDone (p : Fin 2)
  | brkCtrlWrite (m : MasterId) (val : Word)
  | ebreak (p : Fin 2) (pc : Word)
  -- the debug wire
  /-- The wire falls `gap` ns from now, and stays low for `ns` as the device measures it. -/
  | dwLowEnd (gap ns : Nat)
  | dwFrameTimeout
  | dwReplyStart
  | idcode
  | status
  | halt (mask : BitVec 2)
  | resume (mask : BitVec 2)
  | step (p : Fin 2)
  | feed (p : Fin 2) (instr : Word)
  | result (p : Fin 2)
  | rddata (p : Fin 2)
  | wrdata (p : Fin 2) (val : Word)
  | rdpc (p : Fin 2)
  | wrpc (p : Fin 2) (pc : Word)
  | group (p : Fin 2) (inMask outMask : Byte)
  | xcfg (global hold : Bool)
  | xhalt (mask : Byte)
  | glitch
  | dbgCtrlHalt (m : MasterId) (p : Fin 2)
  | dbgCtrlResume (m : MasterId) (p : Fin 2)
  | dbgCtrlStep (m : MasterId) (p : Fin 2)
  | dbgFeedWrite (m : MasterId) (p : Fin 2) (instr : Word)
  | feedComplete (p : Fin 2)
  | brkXhalt (m : MasterId) (val : Word)
  -- fuses
  | fusProg (m : MasterId) (val : Word)
  /-- The bits that read 0 after their first burn, and after the second. -/
  | fusProgComplete (again stuck : Word)
  -- events and the Ledger
  | eventLogWrite
  | evtRaise (m : MasterId) (val : Word)
  | eventPulseEnd (pin : Fin 16)
  | evtTrigClr (m : MasterId) (val : Word)
  | logRecordRead (m : MasterId) (i : BitVec 10)
  | ledgerUpdate
  | ledgerErase (m : MasterId) (val : Word)
  | ledgerEraseDone
  -- rows the table lists last
  | senseComplete
  | tmrDisagreement (n : Nat)
  | spanLaneFailure (k : Fin 8)
  | hostLinkError (e : HostErr)
  | dwReplyInterrupted (gap ns : Nat)
  | waitcycWrap (q : Fin 64)
  | bankRetainToOn (b : Fin 32)
deriving DecidableEq, Repr

end Sys2Proof
end

