-- ==== Sys2Proof/Design.lean ====
section
/-! DEFINITION. A design as the fabric's configuration gives it (chapter 4): the settings of its elements, and where each
element's inputs come from. The meaning of configuration bits lies outside the manual (R373), so `Config.netlist` and
`Config.clocking` give the design of a configuration without a value (notes/assumptions/131.md). -/

namespace Sys2Proof.Machine

/-! ## Signals -/

/-- The signals a den gate presents to the design (Table 5.2); `word` is a bit of a header or of data. -/
inductive GateIn where
  | oreqReady | orspValid | ireqValid | edge | swapWarn | plane
  | word (k : Nat)
deriving DecidableEq, Repr

/-- Where a design's signal comes from. Cells, flip-flops, Bears and Setts are numbered over the fabric, a den after another
and within a den a column after another from the south (numbering: DESIGN CHOICE, notes/assumptions/131.md). -/
inductive Sig where
  | const (b : Bool)
  /-- Flip-flop j of cell n is 2n + j. -/
  | ff (n : Nat)
  /-- The wire register at an output of a cluster's switch box. -/
  | wire (cluster out : Nat)
  | yf (cell : Nat)
  | yl (cell : Nat)
  /-- The carry out of the low or the high bit of a cell. -/
  | carry (cell : Nat) (high : Bool)
  | acc (bear bit : Nat)
  | ovf (bear : Nat)
  /-- Bits 71:0 of DOUT, 79:72 PERR, 80 SBE, 81 DBE of port A (false) or B of a Sett. -/
  | sett (sett : Nat) (port : Bool) (bit : Nat)
  | gate (den : Nat) (g : GateIn)
  /-- Signal k from a den into static fabric, as the den's gate presents it (R144). -/
  | iso (den k : Nat)
  /-- A bit of what the I/O cell of a user pin gives. -/
  | pin (n bit : Nat)
  /-- The output of a hard single-bit crossing cell, and bit k of a multi-bit one. -/
  | cross (den n : Nat)
  | held (den n k : Nat)
  /-- Bit k of the word that RAW lane n presents (R253). -/
  | raw (n k : Nat)
deriving DecidableEq, Repr, Inhabited

/-- What a gate presents on a signal from an isolated or frozen den (R144). -/
inductive IsoVal where
  | zero | one | hold
deriving DecidableEq, Repr, Inhabited

/-! ## Clocks (R112, R114, R115) -/

/-- What may drive a global net, and a regional net (R114): output k of a fabric PLL, a clock-capable pin (pins 0 to 3 of an
HP bank), REFCLK, a global net, or a fabric signal. -/
inductive NetSource where
  | fabricPll (n : Fin 24) (out : Fin 4)
  | clockPin (bank : Fin 12) (pin : Fin 4)
  | refclk
  | globalNet (n : Fin 32)
  | signal (s : Sig)
deriving DecidableEq, Repr, Inhabited

/-- A net: its source, and the enable of its glitch-free gate. -/
structure NetCfg where
  src : NetSource := .refclk
  enable : Sig := .const true
deriving DecidableEq, Repr, Inhabited

/-- A fabric PLL's settings (R115): its reference and that clock's kHz, the reference's division, the multiplier, and for
each of its four outputs the divider and the phase in steps of 1/8 of a VCO period. -/
structure FabPll where
  ref : NetSource := .refclk
  refKHz : Nat := 0
  div : Nat := 1
  mul : Nat := 0
  outs : List (Nat × Nat) := []
deriving DecidableEq, Repr, Inhabited

/-- The clocks of the static image (R114, R139). -/
structure Clocking where
  nets : List NetCfg := []
  plls : List FabPll := []
deriving DecidableEq, Repr, Inhabited

/-- A clock's edge within 1 ns, which holds at most one of each kind at 1,000 MHz (R115, R128). -/
structure ClockEdge where
  rise : Bool := false
  fall : Bool := false
deriving DecidableEq, Repr, Inhabited

/-- A choice of a regional net and of its polarity. -/
structure ClkSel where
  net : Fin 16 := 0
  falling : Bool := false
deriving DecidableEq, Repr, Inhabited

/-! ## Logic cells (R108, R109) -/

/-- Where a flip-flop takes its data. -/
inductive FfData where
  | yf | yl | dx
deriving DecidableEq, Repr, Inhabited

/-- A flip-flop's choices (R109). -/
structure FfCfg where
  data : FfData
  clk : Fin 2
  enable : Option (Fin 3)
  reset : Option (Fin 2)
  async : Bool
  rstVal : Bool
  init : Bool
deriving DecidableEq, Repr, Inhabited

/-- A cell: its truth table, I0 to I5, the direct inputs and its two flip-flops. -/
structure CellCfg where
  lut : BitVec 64 := 0
  ins : List Sig := []
  dx : List Sig := []
  ffs : List (Option FfCfg) := []
deriving DecidableEq, Repr, Inhabited

/-- A cluster's control bundle: two clocks with their polarity, three enables and two reset lines (R109). -/
structure CtlCfg where
  clks : List ClkSel := []
  enables : List Sig := []
  resets : List Sig := []
deriving DecidableEq, Repr, Inhabited

/-- An enabled wire register: its input and its clock (R112, R113). -/
structure WireCfg where
  src : Sig := .const false
  clk : ClkSel := {}
deriving DecidableEq, Repr, Inhabited

/-! ## Setts (R116, R120, R121) -/

inductive SettMode where
  | ecc | parity | plain
deriving DecidableEq, Repr, Inhabited
inductive SettWidth where
  | w72 | w36 | w18 | w9
deriving DecidableEq, Repr, Inhabited

/-- What DOUT shows when its port writes an address (R120). -/
inductive SettShow where
  | newData | oldData | holdOut
deriving DecidableEq, Repr, Inhabited

/-- A port's choices; in ECC mode the width is 72 (Table 4.2). -/
structure SettPort where
  width : SettWidth := .w72
  onWrite : SettShow := .newData
  oreg : Bool := false
  srval : BitVec 72 := 0
deriving DecidableEq, Repr, Inhabited

/-- A port's wiring (Table 4.3); `high` are the address bits above ADDR that select a Sett of a cascade. -/
structure SettPortUse where
  port : SettPort := {}
  clk : ClkSel := {}
  en : Sig := .const false
  we : List Sig := []
  addr : List Sig := []
  high : List Sig := []
  din : List Sig := []
  oregCe : Sig := .const false
  oregSr : Sig := .const false
deriving DecidableEq, Repr, Inhabited

/-- A Sett: its mode, its ports, and its place in a cascade from the south (R121). -/
structure SettUse where
  mode : SettMode := .plain
  a : SettPortUse := {}
  b : SettPortUse := {}
  casc : Option (Fin 8) := none
deriving DecidableEq, Repr, Inhabited

/-! ## Bears (R123 to R127) -/

/-- A Bear's registers (R124), with its OVF, and the operands that half-precision mode carries over three stages (R127). -/
structure BearRegs where
  s : BitVec 30 := 0
  t : BitVec 29 := 0
  g : BitVec 22 := 0
  e : BitVec 72 := 0
  pre : BitVec 30 := 0
  prod : BitVec 52 := 0
  acc : BitVec 72 := 0
  mode : BitVec 7 := 0
  ovf : Bool := false
  half : List (BitVec 64) := []
deriving DecidableEq, Repr, Inhabited

/-- Half-precision choices: BF16 in place of FP16, and DOT in place of DUAL. -/
structure HalfCfg where
  bf16 : Bool
  dot : Bool
deriving DecidableEq, Repr, Inhabited

/-- A Bear's choices in the image: registers bypassed (bits 0 to 7: S, T, G, E, PRE, PROD, ACC, BMODE), SHIFT, SAT, the
source of S, half-precision mode, and INIT. -/
structure BearCfg where
  bypass : BitVec 8 := 0
  shift30 : Bool := false
  sat : Bool := false
  southS : Bool := false
  half : Option HalfCfg := none
  init : BearRegs := {}
deriving DecidableEq, Repr, Inhabited

/-- A Bear's wiring; `ces` has the order of `bypass`. -/
structure BearUse where
  cfg : BearCfg := {}
  clk : ClkSel := {}
  s : List Sig := []
  t : List Sig := []
  g : List Sig := []
  e : List Sig := []
  mode : List Sig := []
  ces : List Sig := []
  reset : Sig := .const false
deriving DecidableEq, Repr, Inhabited

/-! ## Hard crossing cells (R70, R71) -/

/-- A single-bit crossing: its input, its destination clock and whether that exceeds 800 MHz. -/
structure CrossUse where
  src : Sig := .const false
  dest : ClkSel := {}
  fast : Bool := false
deriving DecidableEq, Repr, Inhabited

/-- A multi-bit crossing: the value, the send request, and both clocks. -/
structure HoldUse where
  value : List Sig := []
  send : Sig := .const false
  src : ClkSel := {}
  dest : ClkSel := {}
  fast : Bool := false
deriving DecidableEq, Repr, Inhabited

/-- A hold-and-flag crossing: the value held, the source's flag, the flag that each stage towards the destination and each
stage of the acknowledge back holds, the value the destination has taken, and the flag of it. -/
structure HoldFlag where
  value : BitVec 36 := 0
  flag : Bool := false
  there : List Bool := []
  taken : BitVec 36 := 0
  seen : Bool := false
  back : List Bool := []
deriving DecidableEq, Repr, Inhabited

/-! ## User pins (R129, R133) -/

/-- The I/O standards of Table 4.7. -/
inductive IoStd where
  | lvcmos12 | lvcmos15 | lvcmos18 | lvcmos25 | lvcmos33 | lvttl | hstl15 | hstl18 | sstl15 | sstl135 | sstl12 | pod12
  | lvds | slvs400 | lvdsExternal | openDrain
deriving DecidableEq, Repr

/-- How an I/O cell's flip-flops are used (R129): bypassed, SDR, DDR, or the 8:1 and 1:8 gearbox of an HP bank. -/
inductive IoRegMode where
  | direct | sdr | ddr | gearbox
deriving DecidableEq, Repr, Inhabited

/-- The image's settings of one user pin (R129, R133, R144): its standard, whether its output is used, the P leg when it is
the N leg of a differential pair, the den its output comes from, the delay taps, the cell's flip-flops and the net that
clocks them, the signals it drives (one, two for DDR, eight for the gearbox) and its output enable. -/
structure PinCfg where
  std : IoStd := .lvcmos12
  output : Bool := false
  pOf : Option Nat := none
  den : Option (Fin 48) := none
  inTaps : BitVec 9 := 0
  outTaps : BitVec 9 := 0
  regs : IoRegMode := .direct
  clk : NetSource := .refclk
  outs : List Sig := []
  enable : Sig := .const true
deriving DecidableEq, Repr, Inhabited

/-- The pin is an open-drain output. -/
def PinCfg.openDrain (c : PinCfg) : Bool := c.std == .openDrain

/-! ## RAW lanes (R253) -/

/-- The widths W of a RAW lane's words. -/
inductive RawWidth where
  | w64 | w128 | w256
deriving DecidableEq, Repr, Inhabited
def RawWidth.bits : RawWidth → Nat | .w64 => 64 | .w128 => 128 | .w256 => 256

/-- The fabric's side of a RAW lane: the width of its words, the clock of its FIFOs, and the word it sends. -/
structure RawUse where
  width : RawWidth := .w64
  clk : ClkSel := {}
  tx : List Sig := []
deriving DecidableEq, Repr, Inhabited

/-! ## A den's design -/

/-- What a plane configures in its den: elements by their number in the den, the regional nets of its south (false) and
north region, the gate clock, the RAW lanes at the den (0 to 11), and the signals into static fabric with their isolation values (R140, R144,
R253, R373). -/
structure DenDesign where
  cells : List (Nat × CellCfg) := []
  ctls : List (Nat × CtlCfg) := []
  wires : List ((Nat × Nat) × WireCfg) := []
  setts : List (Nat × SettUse) := []
  bears : List (Nat × BearUse) := []
  nets : List ((Bool × Fin 16) × NetCfg) := []
  crossings : List (Nat × CrossUse) := []
  holds : List (Nat × HoldUse) := []
  gateClk : Bool × ClkSel := (false, {})
  raws : List (Nat × RawUse) := []
  isos : List (Sig × IsoVal) := []
deriving DecidableEq, Repr, Inhabited

end Sys2Proof.Machine
end

