-- ==== Sys2Proof/Config.lean ====
section
/-! DEFINITION. What the manual leaves open, as constants without a body: no proof can see their value.
The cryptographic functions are named by the manual (R363, R364) but defined outside it. -/

namespace Sys2Proof

/-- A fresh free value: the n-th value the manual leaves open in a run (notes/assumptions/4.md). -/
opaque Config.freeValue : Nat → BitVec 64

/-- Whether the AES-256-GCM tag of R364 is right, for key, IV, additional data, ciphertext and tag
(UNVERIFIED: defined by NIST SP 800-38D, outside the manual; notes/assumptions/5.md). -/
opaque Config.gcmTagOk : BitVec 256 → List Byte → List Byte → List Byte → List Byte → Bool

/-- The AES-256-GCM plaintext of R364, for key, IV and ciphertext (notes/assumptions/5.md). -/
opaque Config.gcmPlain : BitVec 256 → List Byte → List Byte → List Byte

/-- SHA-384 of FIPS 180-4 (R363; notes/assumptions/5.md). -/
opaque Config.sha384 : List Byte → BitVec 384

/-- ECDSA P-384 verification of FIPS 186-5, for public key, digest and signature (R363; notes/assumptions/5.md). -/
opaque Config.ecdsaOk : List Byte → BitVec 384 → List Byte → Bool

/-- One byte of Brock-A's ROM (R328 gives its place and size, not its content; notes/assumptions/6.md). -/
opaque Config.romByte : Nat → Byte

/-- The fabric PLLs a plane's configuration puts in use (R373 keeps the layout of a plane out of the manual;
notes/assumptions/7.md). -/
opaque Config.fabPllsOf : List Byte → BitVec 24

/-- The fabric PLLs of an image whose reference is a user clock, and not REFCLK (Table 2.1 and R115 allow both, and R373
keeps the configuration out of the manual; notes/assumptions/7.md). -/
opaque Config.fabPllsUser : List Byte → BitVec 24

/-- The settings an image gives user pin n (R129, R373; notes/assumptions/137.md). -/
opaque Config.pinOf : List Byte → Nat → Machine.PinCfg

/-- The level at user pin n at a local time, in eighths of a ns (outside the device; notes/assumptions/137.md). -/
opaque Config.pinLevel : Nat → Nat → Bool

/-- The design of a den's plane, from the plane's data words in rising order (R373 keeps the meaning of configuration bits
out of the manual; notes/assumptions/131.md). -/
opaque Config.netlist : List (Nat × BitVec 64) → Machine.DenDesign

/-- The global nets and fabric PLLs of an image (R139, R373; notes/assumptions/131.md). -/
opaque Config.clocking : List Byte → Machine.Clocking

/-- The edges of a clock source in the ns that begins at a local time (notes/assumptions/131.md). -/
opaque Config.clockEdge : Machine.NetSource → Nat → Machine.ClockEdge

/-- Bit k of the headers and data that den d's gate presents to the design at a local time (Table 5.2;
notes/assumptions/131.md). -/
opaque Config.gateWord : Nat → Nat → Nat → Bool

/-- The value of a signal that no rule gives one: it depends on itself without a register, or takes a route that R107 forbids
(notes/assumptions/131.md). -/
opaque Config.strayValue : Machine.Sig → Bool

/-- The carry out of one bit of a cell, from the truth table, I0 to I5, which of the two bits, and the carry in: R110 gives
the chain, not what a bit computes (notes/assumptions/133.md). -/
opaque Config.carryOut : BitVec 64 → List Bool → Bool → Bool → Bool

/-- The order in which the 8:1 and 1:8 gearboxes place their bits on the pin (R129 does not say; notes/assumptions/133.md). -/
opaque Config.gearOrder : Fin 8 → Fin 8

/-- The value added in half-precision mode where BMODE selects none of ACC, +0 and CIN (R127; notes/assumptions/133.md). -/
opaque Config.halfSource : BitVec 7 → BitVec 72

/-- Which of the 3 to 6 destination cycles, less 3, a flit takes through the bridge into a node in a NOC cycle (R197;
notes/assumptions/141.md). -/
opaque Config.bridgeDelay : Nat → Nat → Fin 4

/-- NOC cycles that n cycles of a FAB or LNK unit's own clock take (R197; notes/assumptions/141.md). -/
opaque Config.bridgeCycles : Nat → Nat → Nat

/-- A word of configuration space whose content the manual does not give (R303: the layout of the capabilities is that of the
PCI Express specification; notes/assumptions/144.md). -/
opaque Config.cfgWord : Nat → Word

/-- The transmit taps that training leaves on a lane at a local time (R251: the protocol of IEEE 802.3ck, outside the manual;
notes/assumptions/143.md). -/
opaque Config.trainedFir : Nat → Nat → Word

/-- The CTLE peaking, and the weight of a DFE tap, that a lane has adapted to at a local time (R250;
notes/assumptions/143.md). -/
opaque Config.ctlePeak : Nat → Nat → BitVec 5
opaque Config.dfeWeight : Nat → Nat → Nat → Byte

/-- Whether the receiver of an untrained lane detects a signal, and whether its CDR holds lock, at a local time (Table 10.4;
outside the device, notes/assumptions/143.md). -/
opaque Config.signalDetect : Nat → Nat → Bool
opaque Config.cdrLock : Nat → Nat → Bool

/-- A RAW lane's word clock has an edge in the ns that begins at a local time, and the word the lane receives with it (R253;
notes/assumptions/143.md). -/
opaque Config.rawEdge : Nat → Nat → Bool
opaque Config.rawWord : Nat → Nat → BitVec 256

/-- Word j of a Ledger header slot as the EVT window shows it: R393 gives the fields, not their offsets
(notes/assumptions/8.md). The arguments are HSEQ, COUNT, BOOTS and ERASES. -/
opaque Config.ledgerHeaderWord : Word → Nat → Word → Word → Nat → Word

/-- The share of a MAC queue in 4 KiB units, for the image, the MAC and the queue (TX 0 to 15, RX from 16): R284 has the
image divide the buffers, and no field or register of the manual carries the division (notes/assumptions/56.md). -/
opaque Config.macShare : List Byte → Nat → Nat → Nat

/-- The firmware version that the INFO command returns (Table 12.8 names it without a value; notes/assumptions/57.md). -/
opaque Config.firmwareVersion : Word

/-- Whether a flip-flop's enable also gates its synchronous reset (R109 does not say; notes/assumptions/133.md). -/
opaque Config.ffResetGated : Bool

/-- The check bits that data bit k of a word adds in the (72,64) code of the Setts (0) and of CRAM (1); a word's check bits
are the sum over its set bits (R116 and R156 name the code, not its bits; notes/assumptions/133.md). -/
opaque Config.eccColumn : Nat → Nat → BitVec 8

/-- What the 7 bits of BMODE select: pre-adder function, accumulate source, sign (R123 gives no codes;
notes/assumptions/133.md). -/
opaque Config.bearModeCode : BitVec 7 → Fin 4 × Fin 5 × Bool

end Sys2Proof
end

