-- ==== Sys2Proof/Machine/State.lean ====
section
/-! DEFINITION. The whole state of one FD96, as plain data, and its value right after reset.
The default of each field is its value in `State.reset`; notes/assumptions/1.md to 3.md log the values the
manual does not give. Fields marked "model's own" are not named by the manual. -/

namespace Sys2Proof.Machine

/-- A sparse table: an index that is not listed holds the table's default. Canonical form (`Tab.wf`): indices
strictly rise and no entry holds the default. -/
structure Tab (α : Type) where
  cells : List (Nat × α) := []
deriving DecidableEq, Repr

/-- Memory: addresses strictly rising, no entry equal to what an unlisted address reads as (`Memory.wf`). -/
abbrev Memory := List Host.Cell

/-- The twelve major modes (Table 3.1). -/
inductive Mode where
  | off | ramp | sense | lock | load | verify | release | run | sleep | deep | hold | stop
deriving DecidableEq, Repr

/-- What a clock-failure policy or a request does to the mode is recorded here (`PWR_LAST_CAUSE`, Table 3.11). -/
inductive Cause where
  | powerOn | pinReset | railLoss | clockReset | stop
deriving DecidableEq, Repr

/-- A write to a TE field waiting for its edge (R11): local TMB time of the write, and the value. -/
structure TeWrite where
  time : Nat
  val : Word
deriving DecidableEq, Repr

/-- The completion the sender of a command sees: error code and read data (R6, R9, R32). Model's own. -/
structure Answer where
  master : MasterId := 0
  err : Err := .ok
  data : Word := 0
deriving DecidableEq, Repr

/-- Time. -/
structure TimeSt where
  /-- Local TMB time in ns since VCC_AON became good; AON time while TMB does not run (Table 3.6); reset 0 (DESIGN CHOICE 0, log 1). -/
  now : Nat := 0
  /-- `PWR_AON_TIME`, the 48-bit AON timer (Table 3.11, R400); reset 0 (DESIGN CHOICE 0, log 1). -/
  aon : BitVec 48 := 0
  /-- ns into the current AON cycle, 0 to 19 (50 MHz, Table 2.1); reset 0 (DESIGN CHOICE 0, log 1). -/
  aonPhase : Nat := 0
  /-- System time has started (R12); reset false (R12: it starts in LOCK). -/
  sysOn : Bool := false
  /-- System time, ns and fraction (`TBS_TIME`, R12, R13); reset 0 (R12). -/
  sys : Stamp := 0
  /-- Slew still to apply, in 1/256 ns (R13); reset 0 (DESIGN CHOICE 0, log 1). -/
  steer : Int := 0
  /-- TMB cycles since the last steering step, up to 40 (R13); reset 40 (DESIGN CHOICE 40, log 1). -/
  steerGap : Nat := 40
  /-- The TMB PLL has failed with REFCLK good, so the TMB domain is stopped and system time stands (R50); reset false. -/
  tmbOff : Bool := false
deriving DecidableEq, Repr

/-- When an armed action is due (R28, R37). -/
inductive Due where
  | time (t : Stamp)
  | tick (n : BitVec 48)
  /-- At the first edge at or after this system time that is not skipped (R37). -/
  | edgeAfter (t : Stamp)
deriving DecidableEq, Repr

/-- The state of a timed-action entry (R35, R38). -/
inductive ActState where
  | free | armed | waiting
deriving DecidableEq, Repr

/-- One entry of the timed action table (R29, R33, R35). -/
structure ActEntry where
  /-- FREE, ARMED, or waiting under R38; reset FREE. -/
  state : ActState := .free
  /-- The index has held an entry (R33). -/
  used : Bool := false
  /-- Generation number (R33); first value 0 (DESIGN CHOICE 0, log 1). -/
  gen : Byte := 0
  cls : BitVec 3 := 0
  late : BitVec 2 := 0
  target : Byte := 0
  arg : Word := 0
  due : Due := .tick 0
  /-- Stored under NEXT or NOW (R37), so its outcome is RAN_LATE. -/
  wasLate : Bool := false
  /-- OUTCOME of Table 1.6; 0 none. -/
  outcome : BitVec 3 := 0
deriving DecidableEq, Repr

/-- A hold request the master has accepted (R42, R43). -/
structure HoldReq where
  time : Nat
  dev : Byte
  count : BitVec 16
  indef : Bool
deriving DecidableEq, Repr

/-- A notice's change to a follower's own edge schedule (R270). -/
inductive Sched where
  | hold (edge : BitVec 64) (count : BitVec 16) (indef : Bool)
  | period (tick : BitVec 48) (period : BitVec 24)
deriving DecidableEq, Repr

/-- A tick edge this device has had, or is about to have: its system time, and what the edge leaves behind (R266, R268).
Model's own. -/
structure EdgeRec where
  time : BitVec 64
  tick : BitVec 48
  skipped : Bool
  holdLeft : BitVec 16
  period : BitVec 24
deriving DecidableEq, Repr

/-- TBS: system time, the tick and the timed action table (chapter 1). -/
structure Tbs where
  /-- `TBS_STATUS`.ROLE: 0 electing, 1 master, 2 follower, 3 holdover (Table 1.3); reset 0. -/
  role : BitVec 2 := 0
  /-- `TBS_STATUS`.ALIGNED (Table 1.3, R14); reset 0. -/
  aligned : Bool := false
  /-- `TBS_STATUS`.HOLD_ACTIVE (Table 1.3); reset 0. -/
  holdActive : Bool := false
  /-- `TBS_STATUS`.CONFLICT (Table 1.3, R21); reset 0. -/
  conflict : Bool := false
  /-- `TBS_STATUS`.MASTER_NUM (Table 1.3); reset 0. -/
  masterNum : Byte := 0
  /-- `TBS_ROLE` TICK_ROLE: 0 MASTER, 1 FOLLOWER, 2 AUTO (Table 1.2); reset 2 (R254: AUTO until a good section is read; DESIGN CHOICE 2, log 1). -/
  imgRole : BitVec 2 := 2
  /-- `TBS_ROLE`/`SPN_STATUS` DEVICE_NUM (Table 1.2, R254); reset 0 (R384: 0 before the system section is read). -/
  devNum : Byte := 0
  /-- Tick number, 48 bits (`TBS_TICK`, R19); reset 0 (R17: edge 0 at system time 0). -/
  tick : BitVec 48 := 0
  /-- `TBS_PERIOD`, 24 bits, ns (R16); reset 10,000 (R16 for a zero field; before LOAD DESIGN CHOICE 10,000, log 1). -/
  period : BitVec 24 := 10000
  /-- `TBS_EDGE`, 64 bits: system time of the last edge (Table 1.2); reset 0 (R17). -/
  lastEdge : BitVec 64 := 0
  /-- System time of the next edge (R17, R18); reset 10,000 (follows from period). -/
  nextEdge : BitVec 64 := 10000
  /-- `TBS_OFFSET`, 32 bits, signed ps (Table 1.2); reset 0 (DESIGN CHOICE 0, log 1). -/
  offset : Word := 0
  /-- Consecutive markers within ±100 ps, up to 16 (R14); reset 0 (DESIGN CHOICE 0, log 1). -/
  alignRun : Nat := 0
  /-- The follower has set its time from a first marker (R13); reset false. -/
  timeSet : Bool := false
  /-- The next marker of the elected master re-aligns in one step (R47); reset false. -/
  realign : Bool := false
  /-- In holdover for good, under R268; reset false. -/
  mismatched : Bool := false
  /-- Local time of the last marker that disciplined time (R46); reset 0. -/
  lastMarker : Nat := 0
  /-- `TBS_HOLD`, last value written (Table 1.4); reset 0. -/
  holdReg : Word := 0
  /-- Hold requests accepted and waiting for their edge, in order of arrival (R42, R43); reset empty. -/
  holdQ : List HoldReq := []
  /-- Notices applied to the own edge schedule and still to come (R270); reset empty. -/
  sched : List Sched := []
  /-- `TBS_HOLD_LEFT`[15:0] (Table 1.2); reset 0 (DESIGN CHOICE 0, log 1). -/
  holdLeft : BitVec 16 := 0
  /-- `TBS_HOLD_LEFT`[16] INDEF (Table 1.2); reset 0 (DESIGN CHOICE 0, log 1). -/
  indef : Bool := false
  /-- A `TBS_HOLD` write held in SLEEP or DEEP (R42); reset none. -/
  heldHold : Option Word := none
  /-- `TBS_DONE_MASK`, 50 bits: dens 0–47, loop channel, Brock-B (Table 1.2); reset 0 (DESIGN CHOICE 0, log 1). -/
  doneMask : BitVec 50 := 0
  /-- Done latches of the current tick, 50 bits (R25); reset 0. -/
  done : BitVec 50 := 0
  /-- TICK_DONEs that count toward the following tick, 50 bits (R25); reset 0. -/
  doneNext : BitVec 50 := 0
  /-- `TBS_OVERRUN_LO`/`_HI` sticky bits, 50 bits (Table 1.2); reset 0 (DESIGN CHOICE 0, log 1). -/
  overrun : BitVec 50 := 0
  /-- `TBS_OVERRUN_COUNT`, 32 bits saturating (Table 1.2); reset 0 (DESIGN CHOICE 0, log 1). -/
  overrunCount : Word := 0
  /-- The first overrun check may be made: release stage 3 is behind (R27); reset false. -/
  checkOn : Bool := false
  /-- Holder of `TBS_ACT_LOCK` (R31); reset none. -/
  lock : Option MasterId := none
  /-- Local time at which the lock was granted (R31); reset 0. -/
  lockAt : Nat := 0
  /-- `TBS_ACT_W0`, 32 bits (Table 1.2); reset 0. -/
  w0 : Word := 0
  /-- `TBS_ACT_W1`, 32 bits (Table 1.2); reset 0. -/
  w1 : Word := 0
  /-- `TBS_ACT_W2`, 32 bits (Table 1.2); reset 0. -/
  w2 : Word := 0
  /-- `TBS_ACT_W3`, 32 bits (Table 1.2); reset 0. -/
  w3 : Word := 0
  /-- `TBS_ACT_RESULT`, 32 bits (Table 1.6); reset 0. -/
  result : Word := 0
  /-- The 256 entries of the timed action table (R29, R33); reset all FREE. -/
  table : Tab ActEntry := {}
  /-- The election has closed with a master (R20, R82); reset false. -/
  elected : Bool := false
  /-- Local time at which the election timer expires, when it runs (R20, R22); reset none. -/
  electAt : Option Nat := none
  /-- Election closed without an eligible master and waits: local time of the last `TBS_NO_MASTER` (R22); reset none. -/
  noMaster : Option Nat := none
  /-- Best candidate heard or offered (R269): class AUTO?, DEVICE_NUM, HOPS, link; reset none. -/
  best : Option (Bool × Byte × Byte × Option (Fin 8)) := none
  /-- Local time of the last ELECT round (R269); reset 0. -/
  electSentAt : Nat := 0
  /-- Recent edges, newest first, at most 64 (R48, R268). Model's own; reset empty. -/
  edges : List EdgeRec := []
  /-- How far, in 1/256 ns, system time had passed the last edge in the TMB cycle that handled it (R17); reset 0. -/
  edgeFrac : Byte := 0
  /-- Local time of the return to RUN from SLEEP or DEEP (R38, R42); reset 0. -/
  runAt : Nat := 0
deriving DecidableEq, Repr

/-- The phase of the DVFS sequencer (Table 2.7). -/
inductive OpPhase where
  | idle
  /-- Raise: standby PLL locking, voltage write in progress. -/
  | raiseWrite
  | raiseRead
  | settle
  | raiseSwitch
  /-- Lower: standby PLL locking. -/
  | lowerLock
  | lowerSwitch
  | lowerWrite
  | lowerRead
deriving DecidableEq, Repr

/-- The AVSBus frame in progress (Table 2.6). -/
inductive AvsFrame where
  | none | rate | write | read
deriving DecidableEq, Repr

/-- CLK: clock domains, the Owl and operating points (chapter 2). -/
structure Clk where
  /-- RW enables of Table 2.4, 1 bit each: NOC SLEEP_EN; reset 0. -/
  nocSleep : Bool := false
  /-- FAB RUN_EN (Table 2.4); reset 1. -/
  fabRun : Bool := true
  /-- FAB SLEEP_EN (Table 2.4); reset 0. -/
  fabSleep : Bool := false
  /-- CFG SLEEP_EN (Table 2.4); reset 1. -/
  cfgSleep : Bool := true
  /-- MEM RUN_EN (Table 2.4); reset 1. -/
  memRun : Bool := true
  /-- MEM SLEEP_EN (Table 2.4); reset 0. -/
  memSleep : Bool := false
  /-- LNK RUN_EN (Table 2.4); reset 1. -/
  lnkRun : Bool := true
  /-- LNK SLEEP_EN (Table 2.4); reset 0. -/
  lnkSleep : Bool := false
  /-- AON judged good, `CLK_REF_STATUS`.AON_OK (Table 2.9, R52); reset 0. -/
  aonOk : Bool := false
  /-- Consecutive good AON windows, up to 8 (R52); reset 0. -/
  aonRun : Nat := 0
  /-- AON cycles counted in the last judgement window (R52). Model's own; reset 0 (DESIGN CHOICE 0, log 1). -/
  aonCount : BitVec 16 := 0
  /-- `CLK_LOCK`, 64 bits: source n good or locked (Table 2.8); bits 0–2 are REF/SPAN/PCIE_GOOD (Table 2.9); reset 0. -/
  good : BitVec 64 := 0
  /-- REF_RUN, SPAN_RUN and PCIE_RUN, 0–8 each (Table 2.9); reset 0. -/
  refRun : Nat := 0
  spanRun : Nat := 0
  pcieRun : Nat := 0
  /-- `CLK_REF_COUNT`[15:0] (Table 2.8); reset 0 (DESIGN CHOICE 0, log 1). -/
  refCount : BitVec 16 := 0
  /-- `CLK_REF_COUNT`[31:16] (Table 2.8); reset 0 (DESIGN CHOICE 0, log 1). -/
  pcieCount : BitVec 16 := 0
  /-- `CLK_POLICY`, 64 bits, 1 = SAFE-HOLD (R56); reset 0 (DESIGN CHOICE 0, log 1). -/
  policy : BitVec 64 := 0
  /-- `CLK_FAIL` sticky bits, 64 bits (Table 2.8); reset 0 (DESIGN CHOICE 0, log 1). -/
  fail : BitVec 64 := 0
  /-- `CLK_FAIL_COUNT`, 32 bits saturating (Table 2.8); reset 0 (DESIGN CHOICE 0, log 1). -/
  failCount : Word := 0
  /-- Sources judged failed and not yet good again, 64 bits (R57–R59); reset 0. -/
  failed : BitVec 64 := 0
  /-- Sources awaited in HOLD, 64 bits (R58, R60); reset 0. -/
  awaitHold : BitVec 64 := 0
  /-- Sources that failed under RESET and are awaited with their PLLs, 64 bits (R57); reset 0. -/
  awaitReset : BitVec 64 := 0
  /-- Fabric PLLs the running design uses, 24 bits (R55); reset 0 (unconfigured). -/
  fabPlls : BitVec 24 := 0
  /-- Fabric PLLs whose reference is a user clock, a pin or a global net, and not REFCLK, 24 bits (Table 2.1, R115); reset 0
  (unconfigured). -/
  fabUser : BitVec 24 := 0
  /-- WATCH_SPAN_REF of the system section (R55); reset 0 (DESIGN CHOICE 0, log 1). -/
  watchSpan : Bool := false
  /-- `CLK_STATUS`[10]: the standby NOC PLL is B (Table 2.8); reset 1 (DESIGN CHOICE 1, log 1). -/
  standbyB : Bool := true
  /-- FAB clocks of each of the 8 region rows started by release stage 1 (R63, R89); reset 0. -/
  fabRows : Byte := 0
  /-- Local time since which FAB has not run, so that its registers and outputs stand (Table 3.9); reset none. Model's own. -/
  fabAt : Option Nat := none
  /-- Domains started by a wake request, and the local time of the start or of the last traffic since (R72); reset none. -/
  woken : List (Domain × Nat) := []
  /-- `CLK_WAKE_COUNT`, 32 bits saturating (Table 2.8); reset 0 (DESIGN CHOICE 0, log 1). -/
  wakeCount : Word := 0
  /-- `CLK_OP_STATUS`.OP (Table 2.10); reset 0. -/
  op : BitVec 2 := 0
  /-- `CLK_OP_STATUS`.TARGET (Table 2.10); reset 0. -/
  target : BitVec 2 := 0
  /-- The OP the change in progress leaves (R69). Model's own; reset 0 (DESIGN CHOICE 0, log 1). -/
  opFrom : BitVec 2 := 0
  /-- `CLK_OP_STATUS`.BUSY is phase ≠ idle (Table 2.10); reset 0 (idle). -/
  phase : OpPhase := .idle
  /-- `CLK_OP_STATUS`.PENDING and the waiting target (Table 2.10); reset none. -/
  pending : Option (BitVec 2) := none
  /-- `CLK_OP_STATUS`.VOLT, 16 bits, mV (Table 2.10); reset 0. -/
  volt : BitVec 16 := 0
  /-- The standby NOC PLL is locked at the new frequency (Table 2.7); reset false. -/
  standbyLocked : Bool := false
  /-- Local time at which the change in progress began (Table 2.7); reset 0. -/
  opAt : Nat := 0
  /-- The AVSBus frame in progress (Table 2.6); reset none. -/
  avs : AvsFrame := .none
  /-- Local time of the last voltage read or write frame (Table 2.7); reset 0. -/
  avsAt : Nat := 0
  /-- OP0 has been commanded in LOCK (R82); reset false. -/
  op0Done : Bool := false
  /-- `CLK_AVS_VOUT`, 16 bits, mV (Table 2.8); reset 0 (DESIGN CHOICE 0, log 1). -/
  vout : BitVec 16 := 0
  /-- `CLK_AVS_CFG` RailSel, 4 bits (Table 2.8); reset 0. -/
  railSel : BitVec 4 := 0
  /-- `CLK_AVS_CFG` transition rate, 6 bits (Table 2.8); reset 0. -/
  rate : BitVec 6 := 0
  /-- `CLK_AVS_CFG` DIV, 4 bits (Table 2.8); reset 3. -/
  div : BitVec 4 := 3
  /-- `CLK_OP_LIMIT` OP_MIN (Table 2.8); reset 0 (DESIGN CHOICE 0, log 1). -/
  opMin : BitVec 2 := 0
  /-- `CLK_OP_LIMIT` OP_MAX (Table 2.8); reset 3 (DESIGN CHOICE 3, log 1). -/
  opMax : BitVec 2 := 3
  /-- OP_START of the image (R66); reset 0 (DESIGN CHOICE 0, log 1). -/
  opStart : BitVec 2 := 0
  /-- `CLK_OP_LIMIT` governor limit (Table 2.8, R102); reset 3 (the fused ceiling, R104). -/
  govLimit : BitVec 2 := 3
  /-- A governor reduction takes effect at the next edge (R102); reset none. -/
  govDue : Option (BitVec 2) := none
  /-- `CLK_SYNC`, 64 bits: latched system time (R51); reset 0 (DESIGN CHOICE 0, log 1). -/
  sync : BitVec 64 := 0
  /-- `CLK_SYNC_COUNT`, 32 bits saturating (Table 2.8); reset 0 (DESIGN CHOICE 0, log 1). -/
  syncCount : Word := 0
deriving DecidableEq, Repr

/-- A step the governor meters (Table 3.10). -/
inductive StepKind where
  | release (stage group : Nat)
  | fabWake (group : Nat)
  | opSwitch
  | bankClear (b : Nat)
  | ddrWake (c : Nat)
  | quad (q : Nat)
deriving DecidableEq, Repr

/-- The staged release (R88–R90). -/
structure Release where
  /-- The stage to begin next, 1–3; 0 when no release is armed; reset 0. -/
  next : Nat := 0
  /-- Tick number of the next stage (R88); reset 0. -/
  dueTick : BitVec 48 := 0
  /-- After a slip, the next stage begins at the first edge at or after this local time (R90); reset none. -/
  slipAfter : Option Nat := none
  /-- The stage in progress, 1–3; 4 is the restart of the FAB groups on a wake (R95); 0 none; reset 0. -/
  stage : Nat := 0
  /-- Groups of the stage applied, 0–8; reset 0. -/
  groups : Nat := 0
  /-- Local time at which the last group was applied; reset 0. -/
  groupAt : Nat := 0
  /-- `PWR_RELEASE_STATUS`[2:0] stages complete (Table 3.11); reset 0 (DESIGN CHOICE 0, log 1). -/
  complete : Nat := 0
  /-- `PWR_RELEASE_STATUS`[3] LATE; reset 0 (DESIGN CHOICE 0, log 1). -/
  late : Bool := false
  /-- `PWR_RELEASE_STATUS`[4] SLIP; reset 0 (DESIGN CHOICE 0, log 1). -/
  slip : Bool := false
  /-- `PWR_RELEASE_TICK`, 48 bits (Table 3.11); reset 0 (DESIGN CHOICE 0, log 1). -/
  tick : BitVec 48 := 0
deriving DecidableEq, Repr

/-- The flash slot table in use (Table 3.4): COUNT, and (VALID, LENGTH) of each slot. -/
structure SlotTable where
  count : Nat := 0
  slots : List (Bool × Word) := []
deriving DecidableEq, Repr

/-- How the device reads the flash (R83). -/
inductive FlashMode where
  /-- 1-1-1 at 25 MHz. -/
  | single
  /-- 1-4-4 at 100 MHz. -/
  | quad
  /-- Octal DDR at 200 MHz (JESD251). -/
  | octal
deriving DecidableEq, Repr

/-- The parameters of the accepted image the device keeps using (Tables 15.1, 15.2). -/
structure ImgParams where
  buildId : BitVec 64 := 0
  signed : Bool := false
  encrypted : Bool := false
  keyMatched : Bool := false
  refetchEn : Bool := false
  imageCrc : Word := 0
  releaseTick : BitVec 48 := 0
  capStop : Bool := false
  capW : BitVec 16 := 0
  nocStep : BitVec 16 := 0
  /-- STEP_COST, stage-major: entry 8(s − 1) + g (Table 15.2). -/
  stepCost : List (BitVec 16) := []
  lapTarget : Word := 0
  failStop : Bool := false
  /-- SAFE codes, one per pin (Table 15.4 type 6). -/
  safe : List (BitVec 3) := []
deriving DecidableEq, Repr

/-- PWR: modes, release and the energy governor (chapter 3). -/
structure Pwr where
  /-- `PWR_MODE`.MODE (Table 3.12); reset 2 (SENSE). -/
  mode : Mode := .sense
  /-- `PWR_MODE`.PREV (Table 3.12); reset 1 (RAMP). -/
  prev : Mode := .ramp
  /-- `PWR_MODE`.RESET_PENDING (Table 3.12); reset 0. -/
  resetPending : Bool := false
  /-- `PWR_LAST_CAUSE`[3:0] (Table 3.11); reset 0 (power-on). -/
  cause : Cause := .powerOn
  /-- `PWR_LAST_CAUSE`[7:4] the mode it left (Table 3.11); reset 0 (DESIGN CHOICE OFF, log 1). -/
  causeFrom : Mode := .off
  /-- `PWR_RAIL_STATUS`[6:0], rails of Table 3.3 from VCC_AON to AVTT_LN; reset all good (R78: SENSE follows all rails good). -/
  rails : BitVec 7 := 0x7F
  /-- `PWR_RAIL_STATUS`[23:8], VCCO banks HP0–HP11, HD0–HD3; reset all good (R76, R78). -/
  vcco : BitVec 16 := 0xFFFF
  /-- VCC_CORE switch steps closed, 0–96 (R78); reset 96 (R78: RAMP has ended). -/
  switches : Nat := 96
  /-- RST_DW_N is high (R78); reset true (R78). -/
  pinHigh : Bool := true
  /-- A reset is in effect: the pin has been low for 100 µs (R98); reset false. -/
  pinReset : Bool := false
  /-- `PWR_BOOT_STATUS`[1:0] slot running (Table 3.11); reset 0 (DESIGN CHOICE 0, log 1). -/
  slot : BitVec 2 := 0
  /-- `PWR_BOOT_STATUS`[2] BACKUP (Table 3.11); reset 0 (DESIGN CHOICE 0, log 1). -/
  backup : Bool := false
  /-- `PWR_BOOT_STATUS`[31:16] reasons of slots 0–3, 4 bits each (Table 3.11); reset 0 (DESIGN CHOICE 0, log 1). -/
  reasons : BitVec 16 := 0
  /-- How the flash is read: 1-1-1 until its SFDP table has been read at the start of LOAD (R83); reset 1-1-1. -/
  flash : FlashMode := .single
  /-- The slot table read (R84); reset none. -/
  slotTable : Option SlotTable := none
  /-- LOCK: the slot whose system section is read next (R254); reset 0. -/
  sysSlot : Nat := 0
  /-- LOCK: the system section settings are taken, from a section or from the defaults (R254); reset false. -/
  sysTaken : Bool := false
  /-- The system section used in LOCK, as bytes; none when no slot had a good one (R254); reset none. -/
  sysSection : Option (List Byte) := none
  /-- The slot being tried (R85); reset 0. -/
  trySlot : Nat := 0
  /-- The image read from that slot, until VERIFY accepts or rejects it (R85); reset none. -/
  candidate : Option (List Byte) := none
  /-- VERIFY's checks have passed (R87); reset false. -/
  checksOk : Bool := false
  /-- DDR channels whose training has finished in this VERIFY, 4 bits (R87); reset 0. -/
  trained : BitVec 4 := 0
  /-- The accepted image's parameters; none while no image is accepted (R99, R132); reset none. -/
  img : Option ImgParams := none
  /-- This LOAD restarted under the RESET policy, so outputs stay safe (R57, Table 3.9); reset false. -/
  restarted : Bool := false
  /-- The staged release (R88). -/
  rel : Release := {}
  /-- Burrow, Sett and user-state write enables blocked (R58, R89, R91); reset true (Table 3.9). -/
  blocked : Bool := true
  /-- Rows whose Setts, Bears and flip-flops are unblocked, 8 bits (R89); reset 0. -/
  rowsOpen : Byte := 0
  /-- Rows whose global fabric reset is deasserted, 8 bits (R89); reset 0. -/
  rowsRun : Byte := 0
  /-- User outputs enabled by stage 1 (`IOC_SAFE_STATUS`[2], R89); reset false. -/
  outputsOn : Bool := false
  /-- `PWR_MODE_REQ` last value (Table 3.13); reset 0. -/
  modeReq : Word := 0
  /-- `PWR_MODE_REQ` writes waiting for their edge (R11, R92); reset empty. -/
  modeReqQ : List TeWrite := []
  /-- `PWR_WAKE_EN`, 6 bits (Table 3.7); reset 0b111010. -/
  wakeEn : BitVec 6 := 0b111010
  /-- `PWR_WAKE_CAUSE`, 6 bits (Table 3.11); reset 0 (DESIGN CHOICE 0, log 1). -/
  wakeCause : BitVec 6 := 0
  /-- Wake sources that fired since the last edge, 6 bits (R92); reset 0. -/
  wakePend : BitVec 6 := 0
  /-- `PWR_WAKE_IN_LO`, 32 bits (Table 3.11); reset 0 (DESIGN CHOICE 0, log 1). -/
  wakeInLo : Word := 0
  /-- `PWR_WAKE_IN_HI`, 32 bits (Table 3.11); reset 0 (DESIGN CHOICE 0, log 1). -/
  wakeInHi : Word := 0
  /-- `PWR_WAKE_STATUS`[0] ARMED, with the local time of expiry (R96); reset none (DESIGN CHOICE, log 1). -/
  wakeAt : Option Nat := none
  /-- `PWR_WAKE_STATUS`[1] REJECTED (R96); reset 0 (DESIGN CHOICE 0, log 1). -/
  wakeRejected : Bool := false
  /-- A wake is in progress: the local time from which an edge may enter RUN; `none` inside while PLLs relock (R95); reset none. -/
  waking : Option (Option Nat) := none
  /-- DEEP has been entered, and the PLLs it powered down have not all locked again, so DDR, the Burrow banks and the links
  have not left their DEEP state (R95). Model's own; reset false. -/
  chilled : Bool := false
  /-- The last restart to LOAD from RELEASE onward: AON time and the mode left; a STOP request of the same AON cycle goes
  before it (R75). Model's own; reset none. -/
  restartFrom : Option (BitVec 48 × Mode) := none
  /-- `PWR_DEEP_BANK`, 32 bits (Table 3.11); reset 0. -/
  deepBank : Word := 0
  /-- `PWR_DIDT_LIMIT`, 6 bits, A/µs (Table 3.11); reset 10. -/
  didt : BitVec 6 := 10
  /-- `PWR_STEP_DEPTH`, 12 bits, mA (Table 3.11); reset 2,000. -/
  depth : BitVec 12 := 2000
  /-- `PWR_STEP_TOKENS`, 12 bits, mA (Table 3.11, R100); reset 2,000 (DESIGN CHOICE full, log 1). -/
  tokens : BitVec 12 := 2000
  /-- Steps waiting for the budget, oldest first, with their costs (R100); reset empty. -/
  steps : List (StepKind × Nat) := []
  /-- `PWR_STEP_WAIT_COUNT`, 32 bits saturating (Table 3.11); reset 0 (DESIGN CHOICE 0, log 1). -/
  stepWaits : Word := 0
  /-- `PWR_POWER`, 16 bits, 0.1 W (Table 3.11); reset 0 (DESIGN CHOICE 0, log 1). -/
  power : BitVec 16 := 0
  /-- `PWR_POWER_PEAK`, 16 bits (Table 3.11); reset 0 (DESIGN CHOICE 0, log 1). -/
  peak : BitVec 16 := 0
  /-- `PWR_CAP_SW`, 16 bits, W (Table 3.11); reset 0. -/
  capSw : BitVec 16 := 0
  /-- `PWR_CAP_COUNT`, 32 bits saturating (Table 3.11); reset 0 (DESIGN CHOICE 0, log 1). -/
  capCount : Word := 0
  /-- Consecutive windows above the effective cap (R102); reset 0. -/
  capOver : Nat := 0
  /-- Consecutive windows at or below 90 % of the cap (R104); reset 0. -/
  capUnder : Nat := 0
  /-- `PWR_CAP_AT_MIN` was raised in this unbroken run (R103); reset false. -/
  capAtMin : Bool := false
  /-- `PWR_LOAD_TIME`, 32 bits, µs (Table 3.11); reset 0 (DESIGN CHOICE 0, log 1). -/
  loadTime : Word := 0
  /-- Local time at which LOAD was entered; reset 0. -/
  loadAt : Nat := 0
deriving DecidableEq, Repr

/-- What an output drives on its pin. -/
inductive Drive where
  | hiZ | low | high
  /-- A weak pull. -/
  | weakLow | weakHigh
deriving DecidableEq, Repr

/-- One trigger pin (R135–R137, Table 4.11). -/
structure TrigPin where
  /-- SRC: 0 INPUT, 1 FABRIC, 2 TIMED, 3 EVENT (Table 4.11); reset Image, 0 before LOAD (DESIGN CHOICE 0, log 1). -/
  src : BitVec 2 := 0
  /-- IDLE (Table 4.11); reset Image, 0 before LOAD (DESIGN CHOICE 0, log 1). -/
  idle : Bool := false
  /-- OD (Table 4.11); reset Image, 0 before LOAD (DESIGN CHOICE 0, log 1). -/
  od : Bool := false
  /-- WAKE_EDGE (Table 4.11); reset 0. -/
  wakeEdge : BitVec 2 := 0
  /-- STAMP_EDGE (Table 4.11); reset 0. -/
  stampEdge : BitVec 2 := 0
  /-- Value last written to SRC and IDLE, as a TE read returns it (Table 0.5). -/
  teVal : Word := 0
  /-- Writes to SRC and IDLE waiting for their edge (R11). -/
  teQ : List TeWrite := []
  /-- The level a TIMED pin drives outside a pulse (R28, R135). -/
  level : Bool := false
  /-- A TRIG action has run since TIMED took effect (R135); reset false. Model's own. -/
  acted : Bool := false
  /-- A TRIG pulse: the level it drives and the local time of its end (R28). -/
  pulse : Option (Bool × Nat) := none
  /-- The event router drives ACTIVE; for a PULSE, until this local time (R392). -/
  ev : Option (Option Nat) := none
  /-- Latched system time of the last stamped edge (`IOC_STAMP_n`, 64 bits, R137). -/
  stamp : BitVec 64 := 0
  /-- What the pin drove on entry to DEEP, and holds there (R99); reset none. -/
  held : Option Drive := none
  /-- `EVT_TRIG_CFG_n`: MODE (0 PULSE, 1 LEVEL) (Table 16.8); reset Image, 0 (DESIGN CHOICE 0, log 1). -/
  evLevel : Bool := false
  /-- `EVT_TRIG_CFG_n`: ACTIVE (Table 16.8); reset Image, 0 (DESIGN CHOICE 0, log 1). -/
  evActive : Bool := false
  /-- `EVT_TRIG_CFG_n`: WIDTH, 16 bits, ns (Table 16.8); reset 100. -/
  evWidth : BitVec 16 := 100
deriving DecidableEq, Repr

/-- IOC: I/O banks, safe states and trigger pins (chapter 4). -/
structure Ioc where
  /-- `IOC_BANK_STATUS`[15:0] bank used (Table 4.10); reset 0 (DESIGN CHOICE 0, log 1). -/
  used : BitVec 16 := 0
  /-- `IOC_BANK_STATUS`[31:16] bank mismatched (R130); reset 0 (DESIGN CHOICE 0, log 1). -/
  mismatch : BitVec 16 := 0
  /-- `IOC_BANK_VCCO_b` declared code, 3 bits (Table 4.10); reset 0 unused (DESIGN CHOICE 0, log 1). -/
  declared : Tab (BitVec 3) := {}
  /-- `IOC_BANK_VCCO_b` measured code, 3 bits (Table 4.10); reset 0 (DESIGN CHOICE 0, log 1). -/
  measured : Tab (BitVec 3) := {}
  /-- `IOC_TRIG_LEVEL`, 16 input levels (Table 4.10); reset 0 (DESIGN CHOICE 0, log 1). -/
  level : BitVec 16 := 0
  /-- `IOC_TRIG_LIMIT`, 16 sticky bits (R136); reset 0 (DESIGN CHOICE 0, log 1). -/
  limit : BitVec 16 := 0
  /-- `IOC_STAMP_NEW`[15:0] NEW (R137); reset 0 (DESIGN CHOICE 0, log 1). -/
  stampNew : BitVec 16 := 0
  /-- `IOC_STAMP_NEW`[31:16] OVERWRITE (R137); reset 0 (DESIGN CHOICE 0, log 1). -/
  overwrite : BitVec 16 := 0
  /-- The sixteen trigger pins (Table 4.11). -/
  trig : Tab TrigPin := {}
  /-- Safe-state codes of the last accepted image, one per user pin (R131); reset none held. -/
  safe : Option (List (BitVec 3)) := none
  /-- The image's settings of the 784 user pins (R129); reset empty (unconfigured). -/
  pins : List PinCfg := []
deriving DecidableEq, Repr

/-- A shadow plane's state (R145). -/
inductive Shadow where
  | empty | loading | ready | failed
deriving DecidableEq, Repr

/-- How far a freeze, or the end of an isolation, has come (Table 5.3). -/
inductive Freeze where
  /-- Before +40 ns: isolated, den reset asserted. -/
  | switching
  /-- From +40 ns: the plane is active under den reset. -/
  | planeActive
  /-- From +56 ns: den reset deasserted. -/
  | released
deriving DecidableEq, Repr

/-- An inbound request the den has accepted (R141–R143). -/
structure InReq where
  pkt : Packet
  /-- The address the gate presents: the offset in the den window (R140). -/
  off : Word
  /-- Local time of acceptance (R143). -/
  time : Nat
deriving DecidableEq, Repr

/-- One den: its gate, planes and swap state (chapter 5). -/
structure Den where
  /-- `DEN_STATIC` bit (Table 5.4); reset Image, 0 before LOAD (DESIGN CHOICE 0, log 1). -/
  isStatic : Bool := false
  /-- `DEN_STATE_d`.ACTIVE, the active physical plane (Table 5.5); reset 0. -/
  active : Bool := false
  /-- `DEN_STATE_d`.SHADOW (Table 5.5); reset EMPTY. -/
  shadow : Shadow := .empty
  /-- `DEN_STATE_d`.ISOLATED (Table 5.5); reset 0. -/
  isolated : Bool := false
  /-- `DEN_STATE_d`.DRAINING (Table 5.5); reset 0. -/
  draining : Bool := false
  /-- `DEN_STATE_d`.LAST_ABORT (Table 5.5); reset 0. -/
  lastAbort : BitVec 2 := 0
  /-- `DEN_STATE_d`.ACTIVE_ID (Table 5.5); reset 0. -/
  activeId : Byte := 0
  /-- `DEN_STATE_d`.SHADOW_ID (Table 5.5); reset 0. -/
  shadowId : Byte := 0
  /-- `DEN_STATE_d`.ACTIVE_EMPTY (Table 5.5); reset 0. -/
  activeEmpty : Bool := false
  /-- `DEN_CTRL_d`, last value written (Table 5.4); reset 0. -/
  ctrl : Word := 0
  /-- `DEN_CTRL_d` writes waiting for their edge (R11, R153); reset empty. -/
  ctrlQ : List TeWrite := []
  /-- Isolation by Badger is due at the first edge at or after this local time; true: then a reload (R172); reset none. -/
  badgerIso : Option (Nat × Bool) := none
  /-- A finished reload ends isolation at the first edge at or after this local time (R174); reset none. -/
  endIso : Option Nat := none
  /-- Outbound tags whose response is outstanding, 64 bits (R141); reset 0. -/
  outTags : BitVec 64 := 0
  /-- Outbound tags whose response is to be discarded after FORCE or isolation, 64 bits (R152); reset 0. -/
  dropTags : BitVec 64 := 0
  /-- Flits reserved in the 128-flit response buffer, per outstanding tag (R141); reset empty. -/
  reserved : Tab Nat := {}
  /-- Inbound requests accepted into the den and not answered (R141, R143); reset empty. -/
  inbound : List InReq := []
  /-- Inbound requests held during a drain or a freeze, and not counted (R148); reset empty. -/
  held : List Packet := []
  /-- Requests the gate has already answered whose late response is to be discarded (R143, R152): src device, master, tag; reset empty. -/
  gone : List (Byte × MasterId × BitVec 6) := []
  /-- `DEN_DRAIN_LIMIT_d`, 24 bits, ns (Table 5.4); reset 2,000. -/
  drainLimit : BitVec 24 := 2000
  /-- `DEN_RSP_LIMIT_d`, 24 bits, ns (Table 5.4); reset 100,000. -/
  rspLimit : BitVec 24 := 100000
  /-- `DEN_SWAP_COUNT_d`, 32 bits saturating (Table 5.4); reset 0 (DESIGN CHOICE 0, log 1). -/
  swapCount : Word := 0
  /-- `DEN_DISCARD_d`[15:0] FORCE count (Table 5.4); reset 0 (DESIGN CHOICE 0, log 1). -/
  forceCount : BitVec 16 := 0
  /-- `DEN_DISCARD_d`[31:16] GONE count (Table 5.4); reset 0 (DESIGN CHOICE 0, log 1). -/
  goneCount : BitVec 16 := 0
  /-- `DEN_SRC_d`, 48 bits (Table 5.4); reset 0 (DESIGN CHOICE 0, log 1). -/
  src : Addr := 0
  /-- The freeze, or the end of isolation, in progress, and the local time of its edge (R150, R153); reset none. -/
  freeze : Option (Freeze × Nat) := none
  /-- The freeze in progress ends isolation of the den too; false: the den stays isolated (R154); reset true. -/
  freezeEnds : Bool := true
  /-- The freeze in progress exchanges the planes; false: it only ends isolation (R153); reset false. -/
  freezeSwap : Bool := false
  /-- The end of isolation in progress follows a reload (R174); reset false. -/
  reloadEnd : Bool := false
  /-- Source of the last good load of the plane that is active, for a swap back (Table 5.4); model's own; reset 0
  (DESIGN CHOICE 0, log 1). -/
  activeSrc : Addr := 0
  /-- Den reset asserted (R150, R153); reset true (unconfigured). -/
  inReset : Bool := true
  /-- Tick-work declaration of the shadow plane (R151, R375); reset 0. -/
  shadowWork : Bool := false
  /-- The den has swapped or been reloaded since LOAD (R177); reset false. -/
  changed : Bool := false
  /-- The shadow plane is one the image left empty (R153); reset false. -/
  shadowBlank : Bool := false
  /-- What the gate presents on the den's signals into static fabric, latched when isolation began (R144, R374); reset none:
  the gate is open. -/
  iso : Option (List Bool) := none
  /-- DG_PLANE, the plane index the gate shows the design (Table 5.2, R150); reset 0. -/
  showPlane : Bool := false
  /-- DG_EDGE is due at this local time (Table 5.2, R377); reset none. -/
  edgeAt : Option Nat := none
  /-- Tags of pushes whose response is outstanding, 64 bits: they are not counted (R142, R152); reset 0. -/
  pushTags : BitVec 64 := 0
  /-- The freeze in progress began at a swap edge, so the Badger leaves the den's frames alone (R165); reset false. -/
  swapping : Bool := false
deriving DecidableEq, Repr

/-- DEN: the den loader and the 48 dens (chapter 5). -/
structure DenBlk where
  /-- The 48 dens. -/
  dens : Tab Den := {}
  /-- `DEN_LOAD_SRC`, 48 bits (Table 5.4); reset 0 (DESIGN CHOICE 0, log 1). -/
  loadSrc : Addr := 0
  /-- `DEN_LOAD_LEN`, 32 bits (Table 5.4); reset 0 (DESIGN CHOICE 0, log 1). -/
  loadLen : Word := 0
  /-- `DEN_LOAD_STATUS`.DEN (Table 5.6); reset 0. -/
  loadDen : BitVec 6 := 0
  /-- `DEN_LOAD_STATUS`.BUSY (Table 5.6); reset 0. -/
  loadBusy : Bool := false
  /-- `DEN_LOAD_STATUS`.RESULT (Table 5.6); reset 0. -/
  loadResult : BitVec 4 := 0
  /-- `DEN_LOAD_STATUS`.NETERR (Table 5.6); reset 0. -/
  loadErr : BitVec 4 := 0
  /-- `DEN_LOAD_STATUS`.FRAMES (Table 5.6); reset 0. -/
  loadFrames : BitVec 12 := 0
  /-- READBACK of the load in progress (R146); reset false. -/
  readback : Bool := false
  /-- Source and length taken by the load in progress (R146); reset 0. -/
  curSrc : Addr := 0
  curLen : Word := 0
  /-- Local time at which the load in progress began (R146); reset 0. -/
  loadAt : Nat := 0
deriving DecidableEq, Repr

/-- `BDG_STATUS`.STATE (Table 6.3). -/
inductive BdgState where
  | stopped | running | paused | failed
deriving DecidableEq, Repr

/-- BDG: the Badger, the lap watch and flash re-fetch (chapter 6). -/
structure Bdg where
  /-- `BDG_CTRL`.MODE: true IDLE (Table 6.2); reset Image, 0 before LOAD (DESIGN CHOICE 0, log 1). -/
  idleMode : Bool := false
  /-- `BDG_CTRL`.PAUSE (Table 6.2); reset 0. -/
  pause : Bool := false
  /-- `BDG_CTRL`.FAIL_ACTION: true STOP (Table 6.2); reset Image, 0 before LOAD (DESIGN CHOICE 0, log 1). -/
  failStop : Bool := false
  /-- `BDG_STATUS`.STATE (Table 6.3); reset STOPPED. -/
  state : BdgState := .stopped
  /-- `BDG_STATUS`.UNSCRUBBED (Table 6.3); reset 0. -/
  unscrubbed : Bool := false
  /-- `BDG_POSITION`, 19 bits (Table 6.2); reset 0 (DESIGN CHOICE 0, log 1). -/
  position : BitVec 19 := 0
  /-- `BDG_LAP_TARGET`, 24 bits, µs, last value written (R164); reset 100,000. -/
  lapTarget : BitVec 24 := 100000
  /-- The lap target in use in this lap (R164); reset 100,000. -/
  lapCur : BitVec 24 := 100000
  /-- `BDG_INTERVAL`, 16 bits (R163); reset 0 (DESIGN CHOICE 0, log 1). -/
  interval : BitVec 16 := 0
  /-- Local time at which the lap began (R161); reset 0. -/
  lapAt : Nat := 0
  /-- Local time the lap watch leaves out of this lap (R179); reset 0. -/
  excluded : Nat := 0
  /-- Local time at which the present excluded period began (R179); reset none. -/
  exclFrom : Option Nat := none
  /-- Local time at which the next frame is due (R163); reset 0. -/
  nextDue : Nat := 0
  /-- The segment at the lap position is visited: an active plane, or a shadow that was READY on entry and has not been
  loaded since (R161); reset false. -/
  visiting : Bool := false
  /-- Physical plane of the segment being visited (R161); reset plane 0. -/
  segPlane : Bool := false
  /-- `BDG_LAP_LAST`, 32 bits, µs (Table 6.2); reset 0 (DESIGN CHOICE 0, log 1). -/
  lapLast : Word := 0
  /-- `BDG_LAP_MAX`, 32 bits, µs (Table 6.2); reset 0 (DESIGN CHOICE 0, log 1). -/
  lapMax : Word := 0
  /-- `BDG_LAP_COUNT`, 32 bits, wraps (Table 6.2); reset 0 (DESIGN CHOICE 0, log 1). -/
  lapCount : Word := 0
  /-- `BDG_CE_COUNT`, 32 bits saturating (Table 6.2); reset 0 (DESIGN CHOICE 0, log 1). -/
  ceCount : Word := 0
  /-- `BDG_UE_COUNT`, 32 bits saturating (Table 6.2); reset 0 (DESIGN CHOICE 0, log 1). -/
  ueCount : Word := 0
  /-- `BDG_UE_REPEAT`, 32 bits saturating (Table 6.2); reset 0 (DESIGN CHOICE 0, log 1). -/
  ueRepeat : Word := 0
  /-- `BDG_TMR_FIX`, 32 bits saturating (Table 6.2); reset 0 (DESIGN CHOICE 0, log 1). -/
  tmrFix : Word := 0
  /-- `BDG_RESTART_COUNT`[15:0] saturating (Table 6.2); reset 0 (DESIGN CHOICE 0, log 1). -/
  restarts : BitVec 16 := 0
  /-- `BDG_RESTART_COUNT`[25:16] outcomes of the last 10 laps, bit 0 newest, 1 = restarted (Table 6.2); reset 0 (DESIGN CHOICE 0, log 1). -/
  outcomes : BitVec 10 := 0
  /-- `BDG_MAP_PERR`, 32 bits saturating (Table 6.2); reset 0 (DESIGN CHOICE 0, log 1). -/
  mapPerr : Word := 0
  /-- The known-bad list: frame address and word, at most 16 (R170); reset empty. -/
  bad : List (Nat × Nat) := []
  /-- `BDG_BUCKET` count, 16 bits (Table 6.2); reset 0 (DESIGN CHOICE 0, log 1). -/
  bucket : BitVec 16 := 0
  /-- `BDG_BUCKET_CFG`.THRESH (Table 6.2); reset 64. -/
  thresh : BitVec 16 := 64
  /-- `BDG_BUCKET_CFG`.LEAK, ms (Table 6.2); reset 100. -/
  leak : BitVec 16 := 100
  /-- Leak timer start of the CRAM bucket (R222); reset 0. -/
  leakAt : Nat := 0
  /-- Local time of the bucket's last leak tick (R222); reset 0. -/
  tickAt : Nat := 0
  /-- `BDG_SRC_SEL` den and plane (Table 6.2); reset 0 (DESIGN CHOICE 0, log 1). -/
  srcSel : BitVec 9 := 0
  /-- Reload sources by 2 × den + plane: VALID and 48-bit address (R174); reset not VALID. -/
  sources : Tab (Bool × Addr) := {}
  /-- `BDG_RELOAD_STATUS` den (Table 6.2); reset 0 (DESIGN CHOICE 0, log 1). -/
  rlDen : BitVec 6 := 0
  /-- `BDG_RELOAD_STATUS`.BUSY (Table 6.2); reset 0 (DESIGN CHOICE 0, log 1). -/
  rlBusy : Bool := false
  /-- `BDG_RELOAD_STATUS`.RESULT (Table 6.2); reset 0 (DESIGN CHOICE 0, log 1). -/
  rlResult : BitVec 4 := 0
  /-- The physical plane the reload in progress rewrites (R174); reset 0. -/
  rlPlane : Bool := false
  /-- Dens whose reload is pending, 48 bits (R175); reset 0. -/
  rlPend : BitVec 48 := 0
  /-- `BDG_POLICY_d`, 2 bits (Table 6.1); reset Image, NONE before LOAD (DESIGN CHOICE 0, log 1). -/
  policy : Tab (BitVec 2) := {}
  /-- `CFG_REFETCH_STATUS`.BUSY (Table 6.2); reset 0 (DESIGN CHOICE 0, log 1). -/
  rfBusy : Bool := false
  /-- `CFG_REFETCH_STATUS`.RESULT (Table 6.2); reset 0 (DESIGN CHOICE 0, log 1). -/
  rfResult : BitVec 3 := 0
  /-- The frame address of the re-fetch in progress (R176); reset 0. -/
  rfFrame : Nat := 0
  /-- CRAM: 64 data bits of word w of frame address a at index 64a + w, as written (R156); reset 0 (Table 3.9: unconfigured; DESIGN CHOICE 0, log 1). -/
  cram : Tab (BitVec 64) := {}
  /-- Bits of those words, 8 check bits above 64 data bits, that have flipped since they were written (R156, R167); reset 0. -/
  flips : Tab (BitVec 72) := {}
  /-- Essential-bit map word of frame address a: bits 63:0, with the parity of bytes 0 to 7 in bits 71:64 (R159, R160); reset 0 (DESIGN CHOICE 0, log 1). -/
  map : Tab (BitVec 72) := {}
  /-- The word of the frame at the lap position that the Badger reads next (R165); reset 0. -/
  word : BitVec 6 := 0
  /-- The map parity of the frame being visited was bad (R160); reset false. -/
  mapBad : Bool := false
  /-- Local time at which the reload in progress began (R146, R174); reset 0. -/
  rlAt : Nat := 0
deriving DecidableEq, Repr

/-- How a packet travels (R184). -/
inductive NetChannel where
  /-- The trail channel, on the request or the response virtual channel. -/
  | trail (rsp : Bool)
  /-- Control traffic, on a ring of the loop channel (R182). -/
  | control (ring : Nat)
  /-- Guaranteed traffic, in the reserved slots of a port: its station, and whether it is the hard-block port (R192). -/
  | guar (station : Nat) (hard : Bool)
deriving DecidableEq, Repr

/-- A packet on its way through the device, from the injection port's acceptance until its unit takes it (R184). -/
structure InFlight where
  pkt : Packet
  /-- The span link it came over; a request that came over one is checked as master 6 (R275). -/
  via : Option (Fin 8) := none
  /-- The model's own number of the packet, in order sent. -/
  id : Nat := 0
  chan : NetChannel := .trail false
  /-- The units it leaves from and goes to, as nodes of Network.lean (R183). -/
  src : Nat := 0
  dst : Nat := 0
  /-- The span link it is routed to (R277). -/
  link : Option (Fin 8) := none
  /-- The NOC cycle from which it waits at its injection port. -/
  since : Nat := 0
  /-- Its flits, or its container, that have left that port. -/
  sent : Nat := 0
  /-- The NOC cycle in which the whole of it had reached its unit's port; none while it is on the way. -/
  arrived : Option Nat := none
deriving DecidableEq, Repr

/-- A flit of the trail channel (R185, R187): of packet `id`, on the way to unit `dst`. -/
structure TrailFlit where
  id : Nat
  dst : Nat
  first : Bool
  last : Bool
deriving DecidableEq, Repr

/-- One virtual channel of a trail link or of its bridge (R197 to R199): the sender's credits, the flits on the link with the
cycle in which each lands, the receive buffer with the cycle in which each landed, and the credit returns with the cycle by
which each is back. -/
structure TrailLink where
  held : Nat := 8
  flying : List (Nat × TrailFlit) := []
  buf : List (Nat × TrailFlit) := []
  returning : List Nat := []
  /-- The input whose packet holds the link until its LAST flit; none between packets. -/
  owner : Option Nat := none
  /-- The input served last (round-robin, R199). -/
  served : Nat := 0
  /-- The cycle in which the present head of the buffer became its head. -/
  headAt : Nat := 0
deriving DecidableEq, Repr

/-- An occupied container on a ring (R182), with the station it leaves in the present slot and the port that ejects it. -/
structure Container where
  ring : Nat
  ccw : Bool
  pos : Nat
  id : Nat
  dstSt : Nat
  dstHard : Bool
  guar : Bool
deriving DecidableEq, Repr

/-- A container that a station has marked for its control insertion (R199). -/
structure Mark where
  ring : Nat
  ccw : Bool
  pos : Nat
  station : Nat
deriving DecidableEq, Repr

/-- A ring's slot frames (R190, R195). -/
structure RingSt where
  /-- Cycles of the present slot that have passed: 0 or 1. -/
  phase : Nat := 0
  /-- A frame runs. -/
  on : Bool := false
  /-- The next slot of the frame. -/
  slot : Nat := 0
  /-- Frames begun in this tick. -/
  frame : Nat := 0
  /-- The local time of the edge whose frame 0 has not begun. -/
  startAt : Option Nat := none
  /-- The edge at which the ring was last told to switch. -/
  switchAt : Nat := 0
  /-- The cycle in which the drain ends. -/
  drainEnd : Nat := 0
deriving DecidableEq, Repr

/-- VNX: the Vexha network (chapter 7). -/
structure Vnx where
  /-- `VNX_STATUS`.EPOCH, 4 bits (Table 7.7); reset 0. -/
  epoch : BitVec 4 := 0
  /-- `VNX_STATUS`.DRAINING, 4 bits (Table 7.7); reset 0. -/
  draining : BitVec 4 := 0
  /-- Rings that switch at the frame 0 that follows the edge (R195), 4 bits; reset 0. -/
  switching : BitVec 4 := 0
  /-- `VNX_STATUS`.VALIDATED, 8 bits, bit 2k + e (Table 7.7); reset Image, 0 before LOAD (DESIGN CHOICE 0, log 1). -/
  validated : Byte := 0
  /-- `VNX_FRAME_k_e` at 2k + e, 32 bits (Table 7.6); reset Image, 0 before LOAD (DESIGN CHOICE 0, log 1). -/
  frame : Tab Word := {}
  /-- `VNX_SLOT` entries at (2k + e) × 1,024 + n, 24 bits (Table 7.5); reset 0. -/
  slot : Tab Word := {}
  /-- `VNX_SLOT_RESULT`, 32 bits, less BUSY (Table 7.6); reset 0 (DESIGN CHOICE 0, log 1). -/
  result : Word := 0
  /-- The table under validation, 2k + e (R193); reset none. -/
  validating : Option Nat := none
  /-- Slot frames of each ring (R190); reset: none runs. -/
  rings : Tab RingSt := {}
  /-- Local times of tick edges that the rings have not yet seen (R190); reset empty. -/
  edges : List Nat := []
  /-- Tags outstanding per master, 64 bits each (R200); reset 0. -/
  tags : Tab (BitVec 64) := {}
  /-- Packets between their injection port and the unit that takes them, in order sent (R184); reset empty. -/
  net : List InFlight := []
  /-- The number of the next packet; the model's own; reset 0. -/
  nextId : Nat := 0
  /-- Virtual channels of the trail links, by linkKey (R198); reset 8 credits, empty. -/
  links : Tab TrailLink := {}
  /-- Occupied containers of the rings (R182); reset empty. -/
  ring : List Container := []
  /-- Marked containers (R199); reset empty. -/
  marks : List Mark := []
  /-- Boosted packets (R199); reset empty. -/
  boosted : List ArbPoint := []
  /-- Requests that wait at a unit which serves them in a later step (R187, R205, R235); reset empty. -/
  atTarget : List InFlight := []
  /-- NOC cycles that the network has run; reset 0. -/
  cyc : Nat := 0
  /-- The local time up to which it has run them (notes/assumptions/141.md); reset 0. -/
  ranTo : Nat := 0
deriving DecidableEq, Repr

/-- What one word access does to a Burrow word (R208). -/
inductive WordOp where
  /-- Read n bytes. -/
  | read (n : Nat)
  | write (data : List Byte)
  /-- 64-bit fetch-add. -/
  | add (v : BitVec 64)
  | swap (v : BitVec 64)
deriving DecidableEq, Repr

/-- One word access queued at a bank: the request it belongs to (device, master, tag), the word and the operation. -/
structure WordAcc where
  dev : Byte
  master : MasterId
  tag : BitVec 6
  /-- The master it counts as: 6 for a request from another device (R275). -/
  acting : MasterId
  word : Nat
  /-- Burrow offset of the first byte the access touches. -/
  base : Nat
  /-- NOC cycle of arrival at the bank (R205). -/
  time : Nat
  op : WordOp
deriving DecidableEq, Repr

/-- A Burrow request being served: words left, the first error in code order, and the bytes read so far. -/
structure BurrowReq where
  pkt : Packet
  left : Nat
  err : Err
  /-- Bytes read so far, each part with its Burrow offset. -/
  parts : List (Nat × List Byte)
deriving DecidableEq, Repr

/-- A bank's power state as `BRW_BANK_STATE` shows it (Table 8.1). -/
inductive BankState where
  | on | retain | off | clearing
deriving DecidableEq, Repr

/-- A remap entry (Tables 8.1, 9.4). -/
structure RemapEntry where
  valid : Bool := false
  persisted : Bool := false
  /-- Row (Burrow) or line (DDR). -/
  item : Nat := 0
deriving DecidableEq, Repr

/-- One Burrow bank (chapter 8). -/
structure Bank where
  /-- Power state (R213); reset OFF. -/
  state : BankState := .off
  /-- Queued to clear, in ascending bank order or moved to the front (R214); reset false. -/
  queued : Bool := false
  /-- `BRW_BANK_CTRL_b`, 2 bits (Table 8.1); reset Image, 2 OFF before LOAD (R213). -/
  ctrl : BitVec 2 := 2
  /-- Word accesses waiting at the bank, in order of arrival (R205); reset empty. -/
  queue : List WordAcc := []
  /-- Known-bad list: word and granule, at most 4 (R209); reset empty. -/
  bad : List (Nat × Nat) := []
  /-- `BRW_CE_LAST_b`: VALID, granule, word (Table 8.1); reset not VALID. -/
  ceLast : Option (Nat × Nat) := none
  /-- `BRW_REMAP_b_i`, i = 0–7 (Table 8.1); reset not VALID. -/
  remap : Tab RemapEntry := {}
  /-- Spare rows not to be used again until the next SENSE, 8 bits (R212); reset 0. -/
  spent : Byte := 0
  /-- `BRW_BUCKET_b` count, 16 bits (Table 8.1); reset 0 (DESIGN CHOICE 0, log 1). -/
  bucket : BitVec 16 := 0
  /-- Local time of the bucket's last leak tick (R222); reset 0. -/
  tickAt : Nat := 0
  /-- Scrub pointer over 65,536 words and 512 spare words (R218); reset 0. -/
  scrub : Nat := 0
  /-- Start of the present lap, moved on by the time that is not counted (R219); reset 0. -/
  lapAt : Nat := 0
  /-- Local time since which time is not counted toward the lap (R219); reset 0 (OFF). -/
  lapStop : Option Nat := some 0
  /-- `BRW_SCRUB_LAP_b`, 32 bits, µs (Table 8.1); reset 0 (DESIGN CHOICE 0, log 1). -/
  lap : Word := 0
  /-- Local time at which the clear in progress began (R214); reset 0. -/
  clearAt : Nat := 0
  /-- The NOC cycle of that (R217); reset 0. -/
  clearCyc : Nat := 0
  /-- The NOC cycle from which the bank can serve the next access (R205, R208); reset 0. -/
  freeAt : Nat := 0
  /-- The NOC cycle in which the present head of the queue became its head (R217); reset 0. -/
  headAt : Nat := 0
  /-- The master whose single-cycle access held the bank last; none: a read-modify-write, a copy or a clear (R217); reset none. -/
  holder : Option MasterId := none
  /-- The NOC cycle of the last scrub read (R218); reset 0. -/
  scrubAt : Nat := 0
  /-- A scrub correction to be written back in the next free cycle: word (R218); reset none. -/
  writeback : Option Nat := none
deriving DecidableEq, Repr

/-- BRW: the Burrow and the Sett counters (chapter 8). -/
structure Brw where
  /-- The 32 banks. -/
  banks : Tab Bank := {}
  /-- Requests being served, in order of arrival (R205); reset empty. -/
  reqs : List BurrowReq := []
  /-- Banks waiting to clear, in turn (R214); reset empty. -/
  clearQ : List Nat := []
  /-- `BRW_REMAP_RESULT`: the running copy (bank, entry, row, persist), or none (BUSY 0) (Table 8.1); reset none. -/
  copy : Option (Nat × Nat × Nat × Bool) := none
  /-- Local time at which the copy began (R211); reset 0. -/
  copyAt : Nat := 0
  /-- NOC cycles already counted for a master, so that none counts twice: those of the last 65,536 (R217); reset empty. -/
  waited : Tab (List (Nat × Nat)) := {}
  /-- `BRW_REMAP_RESULT`[3:1] result (Table 8.1); reset 0 (DESIGN CHOICE 0, log 1). -/
  rmResult : BitVec 3 := 0
  /-- `BRW_REMAP_RESULT`[11:4] entry and bank (Table 8.1); reset 0 (DESIGN CHOICE 0, log 1). -/
  rmWhere : Byte := 0
  /-- A remap whose Ledger write is still queued keeps BUSY (R394); reset false. -/
  rmPersist : Bool := false
  /-- `BRW_CE_COUNT`, 32 bits saturating (Table 8.1); reset 0 (DESIGN CHOICE 0, log 1). -/
  ceCount : Word := 0
  /-- `BRW_UE_COUNT`, 32 bits saturating (Table 8.1); reset 0 (DESIGN CHOICE 0, log 1). -/
  ueCount : Word := 0
  /-- `BRW_UE_REPEAT`, 32 bits saturating (Table 8.1); reset 0 (DESIGN CHOICE 0, log 1). -/
  ueRepeat : Word := 0
  /-- `BRW_SETT_CE_COUNT`, 32 bits saturating (Table 8.1); reset 0 (DESIGN CHOICE 0, log 1). -/
  settCe : Word := 0
  /-- `BRW_SETT_UE`, 48 sticky bits (Table 8.1); reset 0 (DESIGN CHOICE 0, log 1). -/
  settUe : BitVec 48 := 0
  /-- `BRW_SCRUB_CTRL`.ENABLE (Table 8.1); reset 1. -/
  scrubEn : Bool := true
  /-- `BRW_SCRUB_CTRL`.WARN, 16 bits, ms (Table 8.1); reset 0. -/
  scrubWarn : BitVec 16 := 0
  /-- `BRW_CONFLICT_m`, 40 bits saturating, one per master (R217); reset 0 (DESIGN CHOICE 0, log 1). -/
  conflict : Tab (BitVec 40) := {}
  /-- `BRW_BUCKET_CFG`.THRESH (Table 8.1); reset 32. -/
  thresh : BitVec 16 := 32
  /-- `BRW_BUCKET_CFG`.LEAK, ms (Table 8.1); reset 100. -/
  leak : BitVec 16 := 100
  /-- Leak timer start of the bank buckets (R222); reset 0. -/
  leakAt : Nat := 0
  /-- `BRW_SETT_BUCKET_d` counts, 16 bits (Table 8.1); reset 0 (DESIGN CHOICE 0, log 1). -/
  settBucket : Tab (BitVec 16) := {}
  /-- `BRW_SETT_BUCKET_CFG`.THRESH (Table 8.1); reset 32. -/
  settThresh : BitVec 16 := 32
  /-- `BRW_SETT_BUCKET_CFG`.LEAK, ms (Table 8.1); reset 100. -/
  settLeak : BitVec 16 := 100
  /-- Leak timer start of the Sett buckets (R222); reset 0. -/
  settLeakAt : Nat := 0
  /-- Local time of each den's last Sett bucket tick (R222); reset 0. -/
  settTick : Tab Nat := {}
deriving DecidableEq, Repr

/-- One DDR channel (chapter 9). -/
structure Channel where
  /-- `MEM_CH_CFG_c`, 32 bits (Table 9.4); reset Image, 0 before LOAD (DESIGN CHOICE 0, log 1). -/
  cfg : Word := 0
  /-- `MEM_STATUS`[3:0] channel enabled (Table 9.4); reset 0 (Table 3.9: not initialised). -/
  enabled : Bool := false
  /-- `MEM_STATUS`[7:4] in self-refresh (Table 9.4); reset 0 (DESIGN CHOICE 0, log 1). -/
  selfRefresh : Bool := false
  /-- `MEM_STATUS`[11:8] in power-down (Table 9.4); reset 0 (DESIGN CHOICE 0, log 1). -/
  powerDown : Bool := false
  /-- `MEM_CE_COUNT_c`, 32 bits saturating (Table 9.4); reset 0 (DESIGN CHOICE 0, log 1). -/
  ceCount : Word := 0
  /-- `MEM_UE_COUNT_c`, 32 bits saturating (Table 9.4); reset 0 (DESIGN CHOICE 0, log 1). -/
  ueCount : Word := 0
  /-- `MEM_UE_REPEAT_c`, 32 bits saturating (Table 9.4); reset 0 (DESIGN CHOICE 0, log 1). -/
  ueRepeat : Word := 0
  /-- `MEM_CE_LAST_c`: line, beat and symbol (Table 9.4); reset not VALID. -/
  ceLast : Option (Nat × BitVec 4 × BitVec 4) := none
  /-- `MEM_BUCKET_c` count, 16 bits (Table 9.4); reset 0 (DESIGN CHOICE 0, log 1). -/
  bucket : BitVec 16 := 0
  /-- `MEM_BUCKET_CFG_c`.THRESH (Table 9.4); reset 16. -/
  thresh : BitVec 16 := 16
  /-- `MEM_BUCKET_CFG_c`.LEAK, ms (Table 9.4); reset 1,000. -/
  leak : BitVec 16 := 1000
  /-- Leak timer start (R222); reset 0. -/
  leakAt : Nat := 0
  /-- Local time of the bucket's last leak tick (R222); reset 0. -/
  tickAt : Nat := 0
  /-- `MEM_PATROL_CFG_c`.INTERVAL, 24 bits, ns (Table 9.4); reset 1,000. -/
  interval : BitVec 24 := 1000
  /-- `MEM_PATROL_CFG_c`.ENABLE (Table 9.4); reset 1. -/
  patrolEn : Bool := true
  /-- `MEM_PATROL_POS_c`, 30 bits (Table 9.4); reset 0 (DESIGN CHOICE 0, log 1). -/
  patrolPos : Nat := 0
  /-- `MEM_PATROL_LAP_c`, 32 bits, ms (Table 9.4); reset 0 (DESIGN CHOICE 0, log 1). -/
  patrolLap : Word := 0
  /-- Start of the present patrol lap and time of the last patrol read (R231); reset 0. -/
  patrolAt : Nat := 0
  patrolLast : Nat := 0
  /-- Known-bad lines, at most 8 (R230); reset empty. -/
  bad : List Nat := []
  /-- `MEM_REMAP_c_i`, i = 0–15 (Table 9.4); reset not VALID. -/
  remap : Tab RemapEntry := {}
  /-- Entries cleared by a later entry for their line, whose stores are not used again until SENSE (R212, R396); reset none. -/
  spentLines : BitVec 16 := 0
  /-- Line stores marked POISON, 16 bits (R232); reset 0. -/
  storeBad : BitVec 16 := 0
  /-- The 64 B line stores, at 64i + byte (R232, R233); reset zeros. -/
  store : Tab Byte := {}
  /-- The port queue of this channel's MEM port, at most 64 (R235); reset empty. -/
  portQ : List Packet := []
deriving DecidableEq, Repr

/-- A push accepted into a decoupling queue (R237–R239). -/
structure DqPush where
  pkt : Packet
  isRead : Bool
  off : Nat
  /-- Bytes of its extent. -/
  len : Nat
  /-- The DDR read of this push has returned: the lines, counted from its first, that were uncorrectable. -/
  got : Option (List Nat)
deriving DecidableEq, Repr

/-- A response packet of a decoupling queue: its bytes not yet taken, or POISON (R239). -/
structure DqPacket where
  poison : Bool
  data : List Byte
deriving DecidableEq, Repr

/-- One decoupling queue pair (chapter 9). -/
structure Dq where
  /-- `MEM_DQ_CFG_q`.ENABLE (Table 9.4); reset Image, 0 before LOAD (DESIGN CHOICE 0, log 1). -/
  enable : Bool := false
  /-- `MEM_DQ_CFG_q`.ACK_WRITES (Table 9.4); reset Image, 0 before LOAD (DESIGN CHOICE 0, log 1). -/
  ackWrites : Bool := false
  /-- `MEM_DQ_CFG_q`.OWNER, 6 bits (Table 9.4); reset Image, 0 before LOAD (DESIGN CHOICE 0, log 1). -/
  owner : MasterId := 0
  /-- `MEM_DQ_CFG_q`.RSP_BEATS, 13 bits (Table 9.4); reset Image, 0 before LOAD (DESIGN CHOICE 0, log 1). -/
  rspBeats : BitVec 13 := 0
  /-- `MEM_DQ_STATUS_q` free tokens (R236); reset 64. -/
  free : Nat := 64
  /-- `MEM_DQ_STATUS_q` outstanding tokens (R236); reset 0. -/
  outstanding : Nat := 0
  /-- `MEM_DQ_STATUS_q` unread tokens (R236); reset 0. -/
  unread : Nat := 0
  /-- The request queue, oldest first (R236, R239); reset empty. -/
  pushes : List DqPush := []
  /-- The response packets, head first (R239); reset empty. -/
  packets : List DqPacket := []
  /-- Held waits, in order of arrival (R240); reset empty. -/
  waits : List Packet := []
  /-- `MEM_DQ_STATUS_q`.STALE (R242); reset 0. -/
  stale : Bool := false
  /-- Start of the stale timer, when it runs (R242); reset none. -/
  staleFrom : Option Nat := none
  /-- `MEM_DQ_STALE_q`, 24 bits, ns (Table 9.4); reset Image, 0 before LOAD (DESIGN CHOICE 0, log 1). -/
  staleLimit : BitVec 24 := 0
  /-- `MEM_DQ_WAITCYC_q`, 48 bits (R244); reset 0 (DESIGN CHOICE 0, log 1). -/
  waitcyc : BitVec 48 := 0
  /-- Start of the present span of NOC cycles with a wait held (R244); reset none. -/
  waitFrom : Option Nat := none
  /-- `MEM_DQ_BEATS_q`, 48 bits (R244); reset 0 (DESIGN CHOICE 0, log 1). -/
  beats : BitVec 48 := 0
  /-- `MEM_DQ_ERR_q`: FULL, WRITE_ERR, WAITCYC OVF, BEATS OVF (Table 9.4); reset 0 (DESIGN CHOICE 0, log 1). -/
  err : BitVec 4 := 0
deriving DecidableEq, Repr

/-- MEM: DDR5 channels and decoupling queues (chapter 9). -/
structure MemBlk where
  /-- The four channels. -/
  ch : Tab Channel := {}
  /-- `MEM_STATUS`[12] MEM_MAP: true INTERLEAVE (Table 9.4); reset Image, LINEAR before LOAD (DESIGN CHOICE 0, log 1). -/
  interleave : Bool := false
  /-- The 64 decoupling queues. -/
  dq : Tab Dq := {}
  /-- `MEM_REMAP_LINE`, 30 bits (Table 9.4); reset 0 (DESIGN CHOICE 0, log 1). -/
  rmLine : BitVec 30 := 0
  /-- `MEM_REMAP_RESULT`: the running copy (channel, entry, line, persist) (Table 9.4); reset none. -/
  copy : Option (Nat × Nat × Nat × Bool) := none
  /-- `MEM_REMAP_RESULT`[3:1] (Table 9.4); reset 0 (DESIGN CHOICE 0, log 1). -/
  rmResult : BitVec 3 := 0
  /-- A remap whose Ledger write is still queued keeps BUSY (R394); reset false. -/
  rmPersist : Bool := false
  /-- `MEM_RETIRE_RESULT`[1:0] (Table 9.4); reset 0 (DESIGN CHOICE 0, log 1). -/
  retire : BitVec 2 := 0
  /-- `MEM_RETIRE_RESULT`.BUSY (Table 9.4); reset 0 (DESIGN CHOICE 0, log 1). -/
  retireBusy : Bool := false
deriving DecidableEq, Repr

/-- One transceiver lane (Table 10.4). -/
structure Lane where
  /-- `LAN_CTRL_n`, 3 bits (Table 10.4); reset Image, 0 before LOAD (DESIGN CHOICE 0, log 1). -/
  ctrl : BitVec 3 := 0
  /-- `LAN_STATUS_n`[2] trained (Table 10.4); reset 0 (DESIGN CHOICE 0, log 1). -/
  trained : Bool := false
  /-- `LAN_STATUS_n`[3] FIR_REJECT (R249); reset 0 (DESIGN CHOICE 0, log 1). -/
  firReject : Bool := false
  /-- `LAN_STATUS_n`[15:8] training attempts, saturating (Table 10.4); reset 0 (DESIGN CHOICE 0, log 1). -/
  attempts : Byte := 0
  /-- A training attempt runs, since this local time (R251); reset none. -/
  training : Option Nat := none
  /-- A failed attempt is retried at this local time (R251); reset none. -/
  retryAt : Option Nat := none
  /-- `LAN_TXFIR_n`, 32 bits (Table 10.4); reset Image, 0 before LOAD (DESIGN CHOICE 0, log 1). -/
  fir : Word := 0
  /-- `LAN_RXEQ_n` CTLE peaking, 5 bits (Table 10.4); reset Image, 0 before LOAD (DESIGN CHOICE 0, log 1). -/
  peaking : BitVec 5 := 0
  /-- `LAN_RXEQ_n` CTLE_ADAPT (Table 10.4); reset 1. -/
  ctleAdapt : Bool := true
  /-- `LAN_RXEQ_n` DFE_ADAPT (Table 10.4); reset 1. -/
  dfeAdapt : Bool := true
  /-- `LAN_RXEQ_n` FREEZE (Table 10.4); reset 0. -/
  freeze : Bool := false
  /-- `LAN_DFE_SEL_n`, 5 bits (Table 10.4); reset 0 (DESIGN CHOICE 0, log 1). -/
  dfeSel : BitVec 5 := 0
  /-- The 24 DFE tap weights, 8 bits signed (R250); reset 0 (DESIGN CHOICE 0, log 1). -/
  dfe : Tab Byte := {}
  /-- `LAN_EYE_CTRL_n`, 19 bits (Table 10.4); reset 0 (DESIGN CHOICE 0, log 1). -/
  eyeCtrl : Word := 0
  /-- `LAN_EYE_ERR_n` mismatches, 24 bits (R252); reset 0 (DESIGN CHOICE 0, log 1). -/
  eyeErr : BitVec 24 := 0
  /-- `LAN_EYE_ERR_n`.DONE (R252); reset 0 (DESIGN CHOICE 0, log 1). -/
  eyeDone : Bool := false
  /-- `LAN_EYE_ERR_n`.BUSY (R252); reset 0 (DESIGN CHOICE 0, log 1). -/
  eyeBusy : Bool := false
  /-- `LAN_PRBS_n`, 6 bits (Table 10.4); reset 0 (DESIGN CHOICE 0, log 1). -/
  prbs : BitVec 6 := 0
  /-- `LAN_PRBS_ERR_n`, 32 bits saturating (Table 10.4); reset 0 (DESIGN CHOICE 0, log 1). -/
  prbsErr : Word := 0
  /-- RAW mode: the shift registers of the PRBS generator and checker (R253); reset all ones (DESIGN CHOICE all ones, log 1). -/
  gen : BitVec 31 := 0x7FFFFFFF
  chk : BitVec 31 := 0x7FFFFFFF
  /-- RAW mode: the 16-word FIFOs between FAB and LNK, oldest first (R253); reset empty. -/
  rawTx : List (BitVec 256) := []
  rawRx : List (BitVec 256) := []
  /-- RAW mode: the received word the fabric sees, and the word last sent on the lane (R253); reset 0 (DESIGN CHOICE 0, log 1). -/
  rawOut : BitVec 256 := 0
  line : BitVec 256 := 0
deriving DecidableEq, Repr

/-- LAN: lanes and quads (chapter 10). -/
structure Lan where
  /-- `LAN_QUAD_q` image value, 32 bits (Table 10.4); reset Image, 0 OFF before LOAD (DESIGN CHOICE 0, log 1). -/
  quad : Tab Word := {}
  /-- Quads powered, 24 bits (Table 10.4, R248); reset 0 (R248: SPAN quads power up in LOCK). -/
  powered : BitVec 24 := 0
  /-- The 96 lanes. -/
  lanes : Tab Lane := {}
  /-- The lanes are at electrical idle, in SLEEP and DEEP (R93); reset false. -/
  idle : Bool := false
deriving DecidableEq, Repr

/-- A span link's state (R256, Table 10.5). -/
inductive LinkState where
  | down | training | aligning | init | up
deriving DecidableEq, Repr

/-- The three credit classes of a span link end (R262). -/
structure SpanCredits where
  req : Nat := 128
  rsp : Nat := 128
  guar : Nat := 64
deriving DecidableEq, Repr

/-- A request sent over a span link and not answered (R276). -/
structure Tracked where
  srcDev : Byte
  master : MasterId
  tag : BitVec 6
  link : Nat
  /-- The request, so that REMOTE_UNREACHABLE can be routed to its SRC_DEV. -/
  pkt : Packet
deriving DecidableEq, Repr

/-- One span link end (chapter 10). -/
structure Link where
  /-- `SPN_CTRL_k`.ENABLE (Table 10.5); reset 1 for a configured link (DESIGN CHOICE 1, log 1). -/
  enable : Bool := true
  /-- `SPN_CTRL_k`.AUTO_RETRAIN (Table 10.5); reset 1. -/
  autoRetrain : Bool := true
  /-- `SPN_CFG_k` quad, width, UP, configured, 9 bits (Table 10.5); reset 0 until the system section is read (R254). -/
  cfg : BitVec 9 := 0
  /-- `SPN_LINK_STATUS_k` state (Table 10.5); reset DOWN. -/
  state : LinkState := .down
  /-- Far DEVICE_NUM and far link (Table 10.5); reset 0 (DESIGN CHOICE 0, log 1). -/
  farDev : Byte := 0
  farLink : BitVec 3 := 0
  /-- CAPS the far end declared: timing, network, halt (R257); reset 0. -/
  farCaps : BitVec 3 := 0
  /-- Last down cause (Table 10.5); reset 0 (DESIGN CHOICE 0, log 1). -/
  cause : BitVec 4 := 0
  /-- `SPN_DELAY_k`, in 1/256 ns (R264); the register shows ps; reset 0. -/
  delay : Int := 0
  /-- Measurements taken since link up, up to 8, and their sum (R264); reset 0. -/
  measured : Nat := 0
  sum : Int := 0
  /-- Measurements discarded in a row (R264); reset 0. -/
  discards : Nat := 0
  /-- ID and send time of the DELAY_REQ awaiting its answer (R264); reset none. -/
  reqId : Byte := 0
  reqAt : Option Stamp := none
  /-- Local time of the last DELAY_REQ since link up (R264); reset none. -/
  delayAt : Option Nat := none
  /-- `SPN_ASYM_k`, 32 bits signed ps (Table 10.5); reset from the system section, 0 before (R254). -/
  asym : Word := 0
  /-- `SPN_DELAY_DISCARD_k`, 32 bits saturating (Table 10.5); reset 0 (DESIGN CHOICE 0, log 1). -/
  cDiscard : Word := 0
  /-- `SPN_FEC_CE_k`, 32 bits saturating (Table 10.5); reset 0 (DESIGN CHOICE 0, log 1). -/
  cFecCe : Word := 0
  /-- `SPN_FEC_UE_k`, 32 bits saturating (Table 10.5); reset 0 (DESIGN CHOICE 0, log 1). -/
  cFecUe : Word := 0
  /-- `SPN_CRC_ERR_k`, 32 bits saturating (Table 10.5); reset 0 (DESIGN CHOICE 0, log 1). -/
  cCrc : Word := 0
  /-- `SPN_REPLAY_k`, 32 bits saturating (Table 10.5); reset 0 (DESIGN CHOICE 0, log 1). -/
  cReplay : Word := 0
  /-- `SPN_DOWN_COUNT_k`, 32 bits saturating (Table 10.5); reset 0 (DESIGN CHOICE 0, log 1). -/
  cDown : Word := 0
  /-- Items sent and not acknowledged, oldest first; `SPN_REPLAY_OCC_k` is their number (R261); reset empty. -/
  replay : List SeqItem := []
  /-- Sequence number of the oldest held item, and of the next item to send (R261); reset 0. -/
  ackSeq : BitVec 16 := 0
  nextSeq : BitVec 16 := 0
  /-- Items of the replay buffer still to resend, and resends from this number without progress (R261); reset 0. -/
  resend : Nat := 0
  resends : Nat := 0
  /-- Next sequence number the receiver expects; NAK to be sent (R261); reset 0. -/
  expect : BitVec 16 := 0
  nak : Bool := false
  /-- The receiver waits for a replay (R261); reset false. -/
  gap : Bool := false
  /-- Local time at which codeword 0 of the stream begins, and the number of the next codeword, before it is taken mod 4,096
  (R258); reset 0. -/
  streamAt : Nat := 0
  cwNext : Nat := 0
  /-- This end's LINK_INFO has been sent, and the far end's accepted (R256); reset false. -/
  infoSent : Bool := false
  infoOk : Bool := false
  /-- The link is to be brought up once its quad PLL has locked (R256, R278); reset true. -/
  want : Bool := true
  /-- Local time from which REPLAY_TIMEOUT counts: at the transmitter since ACK last advanced, at the receiver since the last
  NAK (R261); reset 0. -/
  ackAt : Nat := 0
  gapAt : Nat := 0
  /-- Queued to send: control messages, timing messages, flits by class (R260); reset empty. -/
  txCtl : List SpanMsg := []
  txTiming : List SpanMsg := []
  txReq : List Flit := []
  txRsp : List Flit := []
  txGuar : List Flit := []
  /-- Response flits are served before request flits in the round-robin's next turn (R260); reset false. -/
  rspNext : Bool := false
  /-- Credits held toward the far end (R262); reset full depth. -/
  credits : SpanCredits := {}
  /-- Cumulative credits returned, sent to and last seen from the far end, mod 256 per class (R262); reset 0. -/
  retReq : Byte := 0
  retRsp : Byte := 0
  retGuar : Byte := 0
  seenReq : Byte := 0
  seenRsp : Byte := 0
  seenGuar : Byte := 0
  /-- Flits received, by class, until a whole packet is taken (R262); reset empty. -/
  rxReq : List Flit := []
  rxRsp : List Flit := []
  rxGuar : List Flit := []
  /-- Control messages received and not yet handled, with the local time of their codeword's receive stamp; reset empty. -/
  rxCtl : List (SpanMsg × Nat) := []
  /-- Timing messages received and not yet handled, with the receive stamp and its local time (R264); reset empty. -/
  rxTiming : List (SpanMsg × Stamp × Nat) := []
  /-- The codeword sent last, and its lane within the link (R258, R260); reset none. Model's own view of the serialiser. -/
  sent : Option (Nat × BitVec 5140) := none
  /-- Local time and HOPS of the last marker of the elected master on this link (R267); reset none. -/
  markerAt : Option Nat := none
  markerHops : Byte := 0
  /-- `SPN_FOREIGN_MASTER` was raised since link up (R267); reset false. -/
  foreign : Bool := false
deriving DecidableEq, Repr

/-- SPN: span links (chapter 10). -/
structure Spn where
  /-- The eight link ends. -/
  links : Tab Link := {}
  /-- `SPN_STATUS` upstream link, or none (upstream valid 0) (Table 10.5); reset none (DESIGN CHOICE, log 1). -/
  upstream : Option (Fin 8) := none
  /-- HOPS this device puts in its markers (R266); reset 0. -/
  hops : Nat := 0
  /-- `SPN_NOTICE_LEAD`, 24 bits, ns (Table 10.5); reset 0 until the section is read (DESIGN CHOICE 0, log 1). -/
  lead : BitVec 24 := 0
  /-- Tracked requests, at most 1,024; `SPN_TRACKED` is their number (R276); reset empty. -/
  tracked : List Tracked := []
  /-- `SPN_ORPHAN`, 32 bits saturating (Table 10.5); reset 0 (DESIGN CHOICE 0, log 1). -/
  orphan : Word := 0
  /-- `SPN_DELAY_INTERVAL`, 16 bits, µs (Table 10.5); reset 1,000. -/
  interval : BitVec 16 := 1000
  /-- `SPN_ROUTE_n`, 4 bits (Table 10.5); reset from the system section, 15 NONE before (DESIGN CHOICE 15, log 1). -/
  route : Tab (BitVec 4) := {}
  /-- Next NOTICE_ID (R270); reset 0 (DESIGN CHOICE 0, log 1). -/
  noticeId : BitVec 16 := 0
  /-- The notices relayed last, at most 1,024: MASTER_NUM and NOTICE_ID (R270); reset empty. -/
  seenNotices : List (Byte × BitVec 16) := []
  /-- The halts recorded last, at most 128: origin and HALT_ID (R272); reset empty. -/
  seenHalts : List (Byte × Byte) := []
deriving DecidableEq, Repr

/-- A frame queued in a TX queue (R287, R292). -/
structure TxFrame where
  /-- The control word (R287) or the same fields of the descriptor. -/
  ctl : BitVec 64
  data : List Byte
  /-- The descriptor's index and its words 0 and 1, for a RING queue. -/
  desc : Option (Nat × BitVec 64 × BitVec 64)
deriving DecidableEq, Repr

/-- One TX or RX queue of a MAC (chapter 11). -/
structure MacQ where
  /-- `MAC_TXQ_CFG`/`MAC_RXQ_CFG`, 32 bits (Table 11.6); reset Image, 0 before LOAD (DESIGN CHOICE 0, log 1). -/
  cfg : Word := 0
  /-- Share of the MAC's buffer, in 4 KiB units (R284); reset Image, 0 before LOAD (DESIGN CHOICE 0, log 1). -/
  share : Nat := 0
  /-- TX: the frame being written: control word and bytes so far (R287); reset none. -/
  openFrame : Option (BitVec 64 × List Byte) := none
  /-- TX: complete frames, oldest first (R287); reset empty. -/
  frames : List TxFrame := []
  /-- `MAC_TXQ_STATUS`.FULL (Table 11.6); reset 0 (DESIGN CHOICE 0, log 1). -/
  full : Bool := false
  /-- RX: packets not fully taken, head first (R288); reset empty. -/
  packets : List (List Byte) := []
  /-- RX: `MAC_RXQ_STATUS`.STALE (R290); reset 0 (DESIGN CHOICE 0, log 1). -/
  stale : Bool := false
  /-- RX: start of the stale timer, when it runs (R290); reset none. -/
  staleFrom : Option Nat := none
  /-- RX: `MAC_RXQ_STATUS`.XOFF (R297); reset 0 (DESIGN CHOICE 0, log 1). -/
  xoff : Bool := false
  /-- RX: `MAC_RXQ_THRESH` (Table 11.6); reset Image, 0 before LOAD (DESIGN CHOICE 0, log 1). -/
  thresh : Word := 0
  /-- RX: `MAC_RXQ_STALE`, 24 bits, ns (Table 11.6); reset Image, 0 before LOAD (DESIGN CHOICE 0, log 1). -/
  staleLimit : BitVec 24 := 0
  /-- RX: `MAC_RXQ_DROP`, 32 bits saturating (Table 11.6); reset 0 (DESIGN CHOICE 0, log 1). -/
  drops : Word := 0
  /-- `MAC_Q_BASE`, 48 bits, as written and as in use (Table 11.6, R302); reset Image, 0 before LOAD (DESIGN CHOICE 0, log 1). -/
  base : Addr := 0
  baseUse : Addr := 0
  /-- `MAC_Q_SIZE`, 13 bits, as written and as in use (Table 11.6, R302); reset Image, 0 before LOAD (DESIGN CHOICE 0, log 1). -/
  size : BitVec 13 := 0
  sizeUse : BitVec 13 := 0
  /-- `MAC_Q_HEAD`, 12 bits (Table 11.6); reset 0 (DESIGN CHOICE 0, log 1). -/
  head : BitVec 12 := 0
  /-- `MAC_Q_TAIL`, 12 bits (Table 11.6); reset 0 (DESIGN CHOICE 0, log 1). -/
  tail : BitVec 12 := 0
  /-- The engine works this ring; false: it waits for the next write of TAIL (R291); reset false. -/
  engine : Bool := false
  /-- Stores of the descriptor engine to a place outside this device's memories, oldest first (R292); reset empty. -/
  stores : List (Addr × List Byte) := []
deriving DecidableEq, Repr

/-- One MAC port (chapter 11). -/
structure MacPort where
  /-- `MAC_PORT_CTRL`, 32 bits (Table 11.6); reset Image, 0 before LOAD (DESIGN CHOICE 0, log 1). -/
  ctrl : Word := 0
  /-- `MAC_PORT_STATUS` link up (Table 11.6); reset 0 (DESIGN CHOICE 0, log 1). -/
  up : Bool := false
  /-- `MAC_PORT_STATUS` local and remote fault (Table 11.6, R282); reset 0 (DESIGN CHOICE 0, log 1). -/
  localFault : Bool := false
  remoteFault : Bool := false
  /-- PAUSE timer: local time of expiry in ns, when it runs (R296); reset none. -/
  pause : Option Nat := none
  /-- PFC timers by class: local time of expiry (R296); reset none. -/
  pfc : Tab (Option Nat) := {}
  /-- Classes under XOFF, 8 bits; under PAUSE bit 0 (R297); reset 0. -/
  xoff : Byte := 0
  /-- Control frames to send: class (PFC) or none (PAUSE), and quanta (R297); reset empty. -/
  ctlOut : List (Option (Fin 8) × BitVec 16) := []
  /-- The data frame in transmission: queue and frame (R285); reset none. -/
  sending : Option (Nat × TxFrame) := none
  /-- The control frame in transmission (R285, R297); reset none. -/
  sendingCtl : Option (Option (Fin 8) × BitVec 16) := none
  /-- Round-robin: the queue served last, by PRIO (R285); reset 0. -/
  lastQ : Tab Nat := {}
  /-- Egress time of the frame in transmission, and the local time at which it started (R285, R298); reset 0. -/
  startAt : Stamp := 0
  sendFrom : Nat := 0
  /-- Local time at which RX_EN was last cleared, and last set (R300); reset 0. -/
  rxOffAt : Nat := 0
  rxOnAt : Nat := 0
  /-- Local time of the last control frame for XOFF, by class, class 0 under PAUSE (R297); reset 0. -/
  xoffAt : Tab Nat := {}
  /-- `MAC_ADDR`, 48 bits (Table 11.6); reset Image, 0 before LOAD (DESIGN CHOICE 0, log 1). -/
  addr : BitVec 48 := 0
  /-- `MAC_MAX_FRAME`, 14 bits (Table 11.6); reset 1,518. -/
  maxFrame : BitVec 14 := 1518
  /-- `MAC_TS_ADJ`, 32 bits, ps (Table 11.6); reset Image, 0 before LOAD (DESIGN CHOICE 0, log 1). -/
  tsAdj : Word := 0
  /-- The `MAC_TXTS` FIFO, at most 16: TAG, queue, ns and fraction (R299); reset empty. -/
  txts : List (Byte × BitVec 4 × BitVec 64 × Byte) := []
  /-- `MAC_TXTS_LO`/`_HI`, the popped stamp (Table 11.6); reset 0 (DESIGN CHOICE 0, log 1). -/
  txtsNs : BitVec 64 := 0
  /-- The 14 statistics of Table 11.5, 64 bits each; reset 0 (DESIGN CHOICE 0, log 1). -/
  stat : Tab (BitVec 64) := {}
deriving DecidableEq, Repr

/-- One MAC (chapter 11). -/
structure MacSt where
  /-- `MAC_CFG` configuration, 2 bits (Table 11.6); reset Image, 0 OFF before LOAD (DESIGN CHOICE 0, log 1). -/
  config : BitVec 2 := 0
  /-- `MAC_CFG`.DEFAULT_PCP, 3 bits (Table 11.6); reset Image, 0 before LOAD (DESIGN CHOICE 0, log 1). -/
  defaultPcp : BitVec 3 := 0
  /-- `MAC_PTP_OFFSET`, 64 bits (Table 11.6); reset 0. -/
  ptp : BitVec 64 := 0
  /-- Ports 0–3. -/
  ports : Tab MacPort := {}
  /-- TX queues 0–15 at q, RX queues at 16 + q. -/
  queues : Tab MacQ := {}
  /-- The 256 steering entries, 5 bits (R293); reset Image, 0 before LOAD (DESIGN CHOICE 0, log 1). -/
  steer : Tab (BitVec 5) := {}
  /-- Writes of the last microsecond to the steering table, oldest first: local time, entry, and its value before (R294); reset
  empty. -/
  steerWas : List (Nat × Nat × BitVec 5) := []
deriving DecidableEq, Repr

/-- An inbound host read waiting for its network answer (R307). -/
structure HostRead where
  tag : BitVec 6
  hostTag : BitVec 14
  len : Nat
  /-- Local time of the request (R307). -/
  time : Nat
deriving DecidableEq, Repr

/-- An outbound request and its TLP (R309–R313). -/
structure HostOut where
  tag : BitVec 14
  pkt : Packet
  /-- Bytes received so far. -/
  data : List Byte
  poisoned : Bool
  /-- Its TLPs have been sent; false: it waits for the link. -/
  sent : Bool
  /-- Local time of transmission, or of its arrival while it waits. -/
  time : Nat
  /-- Timed out at this local time, so the tag is freed 256 µs later (R313). -/
  expired : Option Nat
deriving DecidableEq, Repr

/-- An inbound TLP in the receive buffer (R306, R307): a write's requests that are still to be sent, a read with its host tag
and length, or an access of the endpoint-local block. -/
inductive HostWait where
  | write (l : List Packet)
  | read (p : Packet) (hostTag : BitVec 14) (len : Nat)
  | elbRead (off len : Nat) (hostTag : BitVec 14)
  | elbWrite (off : Nat) (bytes : List (Option Byte))
deriving DecidableEq, Repr

/-- A completion the endpoint sends to the host (Table 12.3). -/
inductive HostCpl where
  | sc (hostTag : BitVec 14) (data : List Byte)
  | scPoisoned (hostTag : BitVec 14) (len : Nat)
  | ur (hostTag : BitVec 14)
  | ca (hostTag : BitVec 14)
deriving DecidableEq, Repr

/-- What the endpoint sends on the link. -/
inductive Tlp where
  | cpl (c : HostCpl)
  | memRead (tag : BitVec 14) (addr : BitVec 64) (len : Nat)
  | memWrite (addr : BitVec 64) (data : List Byte)
  /-- The message of vector v: a write of its data to its address (R319). -/
  | msix (v : Nat) (addr : BitVec 64) (data : Word)
  | ltr (us : Nat)
deriving DecidableEq, Repr

/-- Mailbox states (Table 12.7). -/
inductive MbState where
  | idle | req | busy | done
deriving DecidableEq, Repr

/-- HST: the PCI Express endpoint (chapter 12). -/
structure Hst where
  /-- `HST_STATUS`[0] link up (Table 12.10); reset 0 (R315: trains after the pin rises). -/
  up : Bool := false
  /-- `HST_STATUS` rate code, width and Flit mode (Table 12.10); reset 0 (DESIGN CHOICE 0, log 1). -/
  rate : BitVec 3 := 0
  width : BitVec 4 := 0
  flit : Bool := false
  /-- Bus Master Enable (Table 12.10, R311); reset 0 (defaults, R314). -/
  bme : Bool := false
  /-- MSI-X Enable and Function Mask (Table 12.10); reset 0 (R314). -/
  msixEn : Bool := false
  funcMask : Bool := false
  /-- D3hot (Table 12.10); reset 0 (R314). -/
  d3hot : Bool := false
  /-- Link power state: 0 L0, 1 L1, 2 L1.1, 3 L1.2 (Table 12.10); reset 0 (DESIGN CHOICE 0, log 1). -/
  lstate : BitVec 2 := 0
  /-- The deepest L1 substate the host has enabled (R93, R317); reset 0 (R314). -/
  deepest : BitVec 2 := 0
  /-- The first LTR message has been sent (R317); reset false. -/
  ltrSent : Bool := false
  /-- `HST_OUT_HI`, 17 bits (Table 12.10); reset 0. -/
  outHi : BitVec 17 := 0
  /-- Completion Timeout Value, 4 bits, and Disable (R312); reset 0 (Table 12.4 default). -/
  cplTo : BitVec 4 := 0
  cplToOff : Bool := false
  /-- `HST_IN_LIMIT`, 24 bits, µs (Table 12.10); reset 5,000. -/
  inLimit : BitVec 24 := 5000
  /-- Inbound reads outstanding (R307); reset empty. -/
  inReads : List HostRead := []
  /-- Inbound posted writes outstanding: tag and target (R306); reset empty. -/
  inWrites : List (BitVec 6 × Nat) := []
  /-- TLPs accepted into the receive buffer and waiting, at most 256 (R307); reset empty. -/
  inWait : List HostWait := []
  /-- Network answers to inbound requests that the endpoint has yet to take up (R307); reset empty. -/
  answers : List (BitVec 6 × Err × List Byte) := []
  /-- Tags whose late answer is to be discarded (R307), 64 bits; reset 0. -/
  lateTags : BitVec 64 := 0
  /-- Outbound requests outstanding (R309–R313); reset empty. -/
  outs : List HostOut := []
  /-- Next outbound tag; reset 0 (DESIGN CHOICE 0, log 1). -/
  nextTag : BitVec 14 := 0
  /-- TLPs sent, in order; the transmit queue of the link; reset empty. -/
  tlps : List Tlp := []
  /-- `HST_CTO_COUNT`, 32 bits saturating (Table 12.10); reset 0 (DESIGN CHOICE 0, log 1). -/
  ctoCount : Word := 0
  /-- `HST_UNEXP_COUNT`, 32 bits saturating (Table 12.10); reset 0 (DESIGN CHOICE 0, log 1). -/
  unexp : Word := 0
  /-- `HST_UR_COUNT`, 32 bits saturating (Table 12.10); reset 0 (DESIGN CHOICE 0, log 1). -/
  urCount : Word := 0
  /-- `HST_LINK_DOWN_COUNT`, 32 bits saturating (Table 12.10); reset 0 (DESIGN CHOICE 0, log 1). -/
  downCount : Word := 0
  /-- `HST_CTO_LAST`: tag, when VALID (Table 12.10); reset not VALID. -/
  ctoLast : Option (BitVec 14) := none
  /-- AER uncorrectable status bits (Table 12.6), 32 bits; reset 0 (R314). -/
  aerUnc : Word := 0
  /-- AER correctable status bits (Table 12.6), 32 bits; reset 0 (R314). -/
  aerCor : Word := 0
  /-- AER uncorrectable severity: 1 Fatal (Table 12.6, R318); reset the default severities. -/
  aerSev : Word := 0x00462010
  /-- The six words of BAR0, BAR2 and BAR4 as the host has written them (Table 12.1); reset 0 (DESIGN CHOICE 0, log 1). -/
  bars : Tab Word := {}
  /-- Windows 0–15: WIN_BASE (Table 12.10); reset 0. -/
  winBase : Tab Addr := {}
  /-- Windows 0–15: `HST_WIN_CTRL_n`, 16 bits (Table 12.10); reset 0. -/
  winCtrl : Tab Word := {}
  /-- MSI-X table words, 4 per vector (R319, R322); reset 0, and each vector masked (DESIGN CHOICE 1, log 1). -/
  msixTab : Tab Word := {}
  /-- PBA, 2,048 pending bits (R319); reset 0. -/
  pba : Tab Bool := {}
  /-- The mailbox state (Table 12.7); reset IDLE (R320). -/
  mb : MbState := .idle
  /-- ELB_MB_STATUS.OVERRUN (Table 12.9); reset 0 (DESIGN CHOICE 0, log 1). -/
  overrun : Bool := false
  /-- ELB_MB_STATUS SEQ of the last DONE (Table 12.9); reset 0 (DESIGN CHOICE 0, log 1). -/
  doneSeq : BitVec 16 := 0
  /-- SEQ of the request in progress; reset 0. -/
  seq : BitVec 16 := 0
  /-- ELB_MB_VECTOR, 11 bits (Table 12.9); reset 0. -/
  mbVector : BitVec 11 := 0
  /-- MB_REQ, 4 KiB (R320); reset cleared. -/
  mbReq : Tab Byte := {}
  /-- MB_RSP, 4 KiB (R320); reset cleared. -/
  mbRsp : Tab Byte := {}
deriving DecidableEq, Repr

/-- A network access a core waits for (R326, R340). -/
structure CoreWait where
  tag : BitVec 6
  addr : Word
  store : Bool
  rd : BitVec 5
  /-- Size and sign of a load: funct3. -/
  size : BitVec 3
  /-- The access belongs to a fed instruction (R339). -/
  fed : Bool
  /-- The pc that follows a stepped access; none while the pair runs, and for a fed one (R341). -/
  next : Option Word
deriving DecidableEq, Repr

/-- One Brock pair (chapter 13). -/
structure Pair where
  /-- Held in reset (Table 13.7 B_RESET; Table 3.9); reset: Brock-A runs, Brock-B in reset (`State.reset`). -/
  inReset : Bool := false
  /-- Halted (`BRK_STATUS`.HALTED); reset 0. -/
  halted : Bool := false
  /-- Stalled in DEEP or HOLD (`BRK_STATUS`.B_STALLED); reset 0. -/
  stalled : Bool := false
  /-- UNCHECKED (`BRK_STATUS`); reset 0. -/
  unchecked : Bool := false
  /-- RESTARTING (`BRK_STATUS`); reset 0. -/
  restarting : Bool := false
  /-- A halt was requested during the restart, or the pair was halted (R333); reset false. -/
  haltAfter : Bool := false
  /-- Local times of recent restarts (R332); reset empty. -/
  restarts : List Nat := []
  /-- Local time of the last `BRK_MISMATCH_STORM` (R332); reset none. -/
  stormAt : Option Nat := none
  /-- Last halt cause, 3 bits (`DBG_STATUS_p`); reset 0 (DESIGN CHOICE 0, log 1). -/
  cause : BitVec 3 := 0
  /-- A halt waits for the network access in progress (R338): its cause; reset none. -/
  haltWait : Option (BitVec 3) := none
  /-- `DBG_CTRL_p`.EBREAK_HALT (Table 13.6); reset 0. -/
  ebreakHalt : Bool := false
  /-- Feed busy (`DBG_STATUS_p`[4]); reset 0 (DESIGN CHOICE 0, log 1). -/
  feedBusy : Bool := false
  /-- `DBG_RESULT_p`, 7 bits (Table 13.6); reset 0 (DESIGN CHOICE 0, log 1). -/
  result : BitVec 7 := 0
  /-- DDATA, 32 bits (`DBG_DATA_p`, CSR 0x7C0); reset 0 (DESIGN CHOICE 0, log 1). -/
  ddata : Word := 0
  /-- pc and, while halted, the resume PC (`DBG_PC_p`); reset vector 0 of Brock-A (R328). -/
  pc : Word := 0
  /-- x1–x31 (R324); reset 0 (DESIGN CHOICE 0, log 1). -/
  regs : Tab Word := {}
  /-- mstatus.MIE and MPIE (R324); reset 0 (PRESUMED 0, log 9). -/
  mie : Bool := false
  mpie : Bool := false
  /-- mie CSR: MSIE, MTIE, MEIE as a 32-bit word (R324); reset 0 (PRESUMED 0, log 9). -/
  mieReg : Word := 0
  /-- mtvec, 32 bits (R324); reset 0 (PRESUMED 0, log 9). -/
  mtvec : Word := 0
  /-- mepc, 32 bits (R324); reset 0 (PRESUMED 0, log 9). -/
  mepc : Word := 0
  /-- mcause, 32 bits (R324); reset 0 (PRESUMED 0, log 9). -/
  mcause : Word := 0
  /-- mtval, 32 bits (R324); reset 0 (PRESUMED 0, log 9). -/
  mtval : Word := 0
  /-- mscratch, 32 bits (R324); reset 0 (PRESUMED 0, log 9). -/
  mscratch : Word := 0
  /-- mcycle, 64 bits (R324); reset 0 (PRESUMED 0, log 9). -/
  mcycle : BitVec 64 := 0
  /-- minstret, 64 bits (R324); reset 0 (PRESUMED 0, log 9). -/
  minstret : BitVec 64 := 0
  /-- Machine timer interrupt pending (R327); reset 0. -/
  mtip : Bool := false
  /-- MTIMECMP, 64 bits (Table 13.2); reset all ones. -/
  mtimecmp : BitVec 64 := 0xFFFFFFFFFFFFFFFF
  /-- MTIME_HI latched by the last read of MTIME_LO (Table 13.2); reset 0 (DESIGN CHOICE 0, log 1). -/
  mtimeHi : Word := 0
  /-- IRQ_PEND[2:1] mailbox and doorbell; bit 0 is `EVT_BRK_PEND` (Table 13.2); reset 0 (DESIGN CHOICE 0, log 1). -/
  irqMailbox : Bool := false
  irqDoorbell : Bool := false
  /-- IRQ_EN, 3 bits (Table 13.2); reset 0. -/
  irqEn : BitVec 3 := 0
  /-- Network windows: WIN_BASE (Table 13.2); reset 0 (DESIGN CHOICE 0, log 1). -/
  winBase : Tab Addr := {}
  /-- Network windows: WIN_CTRL (Table 13.2); reset 0 (DESIGN CHOICE 0, log 1). -/
  winCtrl : Tab Word := {}
  /-- BUSERR, 32 bits (Table 13.2); reset 0 (DESIGN CHOICE 0, log 1). -/
  buserr : Word := 0
  /-- The network access the core waits for (R326); reset none. -/
  wait : Option CoreWait := none
  /-- The response of a fed access, delivered and not yet taken up (R340); reset none. -/
  fedAnswer : Option (Err × Nat) := none
  /-- Tags whose response is sunk and discarded after a restart, 64 bits (R333); reset 0. -/
  sinkTags : BitVec 64 := 0
  /-- `BRK_GROUP_p` IN and OUT (Table 13.6); reset 0. -/
  inMask : Byte := 0
  outMask : Byte := 0
  /-- The core has executed WFI and waits for an interrupt (R93); reset false. -/
  wfi : Bool := false
  /-- Bit position of the comparator self-test (R331); reset 0 (DESIGN CHOICE 0, log 1). -/
  testBit : Nat := 0
  /-- Local time of the last self-test (R331); reset 0. -/
  testAt : Nat := 0
deriving DecidableEq, Repr

/-- A complete debug-wire frame: CMD and payload bits, MSB first (R335). -/
structure DwFrame where
  cmd : Byte
  payload : List Bool
deriving DecidableEq, Repr

/-- BRK: Brock cores and debug (chapter 13). -/
structure Brk where
  /-- Brock-A and Brock-B; `State.reset` lists Brock-B in reset. -/
  a : Pair := {}
  b : Pair := { inReset := true, pc := 0x10000000 }
  /-- `BRK_CTRL`.B_RUN (Table 13.6); reset 1. -/
  bRun : Bool := true
  /-- `BRK_MISMATCH_COUNT`, 16 bits each, saturating (Table 13.6); reset 0 (DESIGN CHOICE 0, log 1). -/
  mismatchA : BitVec 16 := 0
  mismatchB : BitVec 16 := 0
  /-- `BRK_DELAY_PERR_COUNT` (Table 13.6); reset 0 (DESIGN CHOICE 0, log 1). -/
  delayA : BitVec 16 := 0
  delayB : BitVec 16 := 0
  /-- `BRK_TCM_PERR_COUNT` (Table 13.6); reset 0 (DESIGN CHOICE 0, log 1). -/
  tcmA : BitVec 16 := 0
  tcmB : BitVec 16 := 0
  /-- `BRK_XCFG` GLOBAL, HOLD and last HALT_ID (Table 13.6); reset 0. -/
  xGlobal : Bool := false
  xHold : Bool := false
  haltId : Byte := 0
  /-- `DBG_GLITCH_COUNT`, 32 bits saturating (Table 13.6); reset 0 (DESIGN CHOICE 0, log 1). -/
  glitch : Word := 0
  /-- `DBG_FRAME_ERR_COUNT`, 32 bits saturating (Table 13.6); reset 0 (DESIGN CHOICE 0, log 1). -/
  frameErr : Word := 0
  /-- `DBG_FRAME_COUNT`, 32 bits saturating (Table 13.6); reset 0 (DESIGN CHOICE 0, log 1). -/
  frameCount : Word := 0
  /-- Bits of the frame in progress, in order received; none outside a frame (R335); reset none. -/
  bits : Option (List Bool) := none
  /-- Local time at which the last low of the frame began (R335); reset 0. -/
  cellAt : Nat := 0
  /-- A complete frame whose command is to be executed (R336); reset none. -/
  frame : Option DwFrame := none
  /-- The reply prepared: ST, payload bits and parity (R336); reset none. -/
  reply : Option (List Bool) := none
  /-- The pair whose FEED the prepared reply answers, while its access runs (R340); reset none. -/
  replyFeed : Option (Fin 2) := none
  /-- The device is sending its reply (R336); reset false. -/
  replying : Bool := false
  /-- Local time at which the first cell of the reply began (R336); reset 0. -/
  replyAt : Nat := 0
  /-- The cells of the last reply that the device has sent (R336); reset empty. -/
  sent : List Bool := []
  /-- Local time of the last valid frame (R337); reset none. -/
  lastFrame : Option Nat := none
deriving DecidableEq, Repr

/-- PRT and FUS: access tables and fuses (chapter 14). -/
structure Fus where
  /-- The fuse array's 512 words, 32 bits each (R356); reset the factory words of `factoryFuses` (DESIGN CHOICE, log 2). -/
  array : Tab Word := {}
  /-- The words latched in SENSE (`FUS_WORD_w`, R353); reset as the array (R81). -/
  latched : Tab Word := {}
  /-- `FUS_STATUS`.ID_OK (Table 14.8); reset 1 (R357 on those words). -/
  idOk : Bool := true
  /-- `FUS_STATUS`.PENDING (Table 14.8); reset 0 (R361). -/
  pending : Bool := false
  /-- `FUS_PROG_WORD`, 9 bits (Table 14.8); reset 0. -/
  word : BitVec 9 := 0
  /-- `FUS_PROG_MASK`, 32 bits (Table 14.8); reset 0. -/
  mask : Word := 0
  /-- The command in progress: word and mask (R361); reset none. -/
  burning : Option (BitVec 9 × Word) := none
  /-- Local time of its GO (R361); reset 0. -/
  burnAt : Nat := 0
  /-- `FUS_PROG_RESULT`[3:1] and [12:4] (Table 14.8); reset 0 (DESIGN CHOICE 0, log 1). -/
  result : BitVec 3 := 0
  resWord : BitVec 9 := 0
  /-- `FUS_PROG_FAIL`, 32 bits (Table 14.8); reset 0 (DESIGN CHOICE 0, log 1). -/
  fail : Word := 0
  /-- `PRT_QUERY`, 13 bits (Table 14.7); reset 0. -/
  query : Word := 0
  /-- `PRT_DENY_COUNT`, 32 bits saturating (Table 14.7); reset 0 (DESIGN CHOICE 0, log 1). -/
  denyCount : Word := 0
  /-- `PRT_DENY_LAST`, 32 bits (Table 14.7); reset 0 (DESIGN CHOICE 0, log 1). -/
  denyLast : Word := 0
  /-- Local time of the last `PRT_DENIED`, and denials unreported since (R355); reset none. -/
  denyAt : Option Nat := none
  unreported : Nat := 0
deriving DecidableEq, Repr

/-- One event record (Table 16.1). -/
structure EvRec where
  stamp : BitVec 64
  code : BitVec 16
  source : BitVec 16
  detail : Word
deriving DecidableEq, Repr

/-- One Ledger record (Table 16.4), less its fixed VERSION. -/
structure LedgerRec where
  type : Byte
  boots : BitVec 16
  stamp : BitVec 64
  a : Word
  b : BitVec 64
  /-- CRC-32 over bytes 0–27, as stored (R395). -/
  crc : Word
deriving DecidableEq, Repr

/-- A Ledger header (R393). -/
structure LedgerHdr where
  hseq : Word := 0
  count : Nat := 0
  boots : Word := 0
  erases : Word := 0
deriving DecidableEq, Repr

/-- A queued Ledger update (R394), and whose command it completes. -/
inductive LedgerUpd where
  | brw (bank entry row : Nat)
  | mem (ch entry line : Nat)
  | retire (page : Nat)
  | cramUe (detail : Word)
  | fault (code source : BitVec 16) (detail : Word) (stamp : BitVec 64)
deriving DecidableEq, Repr

/-- EVT: events and the Ledger (chapter 16). -/
structure Evt where
  /-- The input queue, oldest first, at most 64 (R386); reset empty. -/
  queue : List EvRec := []
  /-- The log: record s at index s mod 1,024 (R388); reset empty (cleared on entry to OFF). -/
  log : Tab (Option EvRec) := {}
  /-- `EVT_SEQ`, 64 bits (R388); reset 0 (cleared on entry to OFF). -/
  seq : BitVec 64 := 0
  /-- `EVT_OVERWRITE_COUNT`, 32 bits saturating (Table 16.8); reset 0 (DESIGN CHOICE 0, log 1). -/
  overwrites : Word := 0
  /-- `EVT_LOST_COUNT`, 32 bits saturating (Table 16.8); reset 0 (DESIGN CHOICE 0, log 1). -/
  lost : Word := 0
  /-- Events lost since the previous `EVT_LOST` (R386); reset 0. -/
  lostSince : Nat := 0
  /-- Events raised and events lost in all, mod 2^64 (R389); model's own; reset 0. -/
  raised : BitVec 64 := 0
  lostAll : BitVec 64 := 0
  /-- `EVT_CLASS_COUNT_c`, 32 bits saturating (Table 16.8); reset 0 (DESIGN CHOICE 0, log 1). -/
  classCount : Tab Word := {}
  /-- `EVT_ROUTE_n` values that differ from the default of Table 16.8; reset none: BRKA = 1 for classes 2 and 3. -/
  route : Tab (Option Word) := {}
  /-- `EVT_ROUTE_CODE_i`, 32 bits (Table 16.8); reset VALID 0. -/
  routeCode : Tab Word := {}
  /-- The route of entry i (Table 16.8); reset 0 (Table 16.6). -/
  routeOf : Tab Word := {}
  /-- `EVT_BRK_PEND`, 2 bits (Table 16.8); reset 0 (DESIGN CHOICE 0, log 1). -/
  brkPend : BitVec 2 := 0
  /-- `EVT_BRK_LAST_p`, 32 bits each (Table 16.8); reset 0 (DESIGN CHOICE 0, log 1). -/
  brkLastA : Word := 0
  brkLastB : Word := 0
  /-- Ledger record slots 0–511 (R393); blank (0xFF) where none; reset blank (DESIGN CHOICE factory state, log 3). -/
  recs : Tab (Option LedgerRec) := {}
  /-- Ledger header slots 0–63 (R393); reset slot 0 holds the header SENSE wrote (log 3). -/
  hdrs : Tab (Option LedgerHdr) := {}
  /-- The current header slot (R393); reset 0 (log 3). -/
  cur : Nat := 0
  /-- The header in force (R393, R396); reset HSEQ 1, COUNT 0, BOOTS 1, ERASES 0 (DESIGN CHOICE factory header, log 3). -/
  hdr : LedgerHdr := { hseq := 1, boots := 1 }
  /-- Queued Ledger updates, at most 16 (R394); reset empty. -/
  fifo : List LedgerUpd := []
  /-- Requests that found the FIFO full and wait (R394); reset empty. -/
  fifoWait : List LedgerUpd := []
  /-- `EVT_LEDGER_FULL`.FULL (Table 16.8); reset 0 (R398 at COUNT 0). -/
  full : Bool := false
  /-- An erase is in progress (`EVT_LEDGER_STATUS`.BUSY, R399); reset false. -/
  erasing : Bool := false
  /-- `EVT_LEDGER_ERR_COUNT`, 32 bits saturating (Table 16.8); reset 0 (DESIGN CHOICE 0, log 1). -/
  ledgerErr : Word := 0
  /-- FAULT codes already copied to the Ledger since SENSE (R397); reset empty. -/
  faultSeen : List (BitVec 16) := []
  /-- Local time, in half ns, of the last write of the logger (R386); reset 0. -/
  logAt : Nat := 0
deriving DecidableEq, Repr

/-- What a Sett port shows: DOUT, PERR, SBE, DBE; `live`: the access meant this Sett of its cascade (R121). -/
structure SettOut where
  dout : BitVec 72 := 0
  perr : BitVec 8 := 0
  sbe : Bool := false
  dbe : Bool := false
  live : Bool := false
deriving DecidableEq, Repr

/-- A Sett port's read stages: the read itself, the second stage of ECC mode, the output register, and the cascade's register
(R117, R121). -/
structure SettStages where
  first : SettOut := {}
  second : SettOut := {}
  oreg : SettOut := {}
  casc : SettOut := {}
deriving DecidableEq, Repr

/-- An I/O cell's flip-flops: input at the rising and at the falling edge, output likewise, and the gearbox bits in and out
(R129). -/
structure IoRegs where
  inRise : Bool := false
  inFall : Bool := false
  outRise : Bool := false
  outFall : Bool := false
  gearIn : Byte := 0
  gearOut : Byte := 0
deriving DecidableEq, Repr

/-- The user fabric (chapter 4). Elements are numbered as `Sig` numbers them; one that is not listed holds its INIT, and a
wire register 0, as the global fabric reset leaves them (R109, R113, R124). -/
structure Fab where
  /-- Sett words: 72 bits of word w of Sett i at 1,024i + w (R116, R122); reset undefined (Table 3.9), DESIGN CHOICE 0, log 1. -/
  sett : Tab (BitVec 72) := {}
  /-- The 7,864,320 flip-flops; none is INIT (R109); reset INIT. -/
  ff : Tab (Option Bool) := {}
  /-- Wire registers, at 491,520 × output + cluster (R113); reset 0. -/
  wire : Tab Bool := {}
  /-- The 12,288 Bears' registers; none is INIT (R124); reset INIT. -/
  bear : Tab (Option BearRegs) := {}
  /-- Read stages of port A of Sett i at 2i, of port B at 2i + 1 (R117); reset 0 (DESIGN CHOICE 0, log 1). -/
  port : Tab SettStages := {}
  /-- Single-bit crossing cells: stages of cell n of den d at 128d + n, nearest the source first (R70); reset 0. -/
  cross : Tab (List Bool) := {}
  /-- Multi-bit crossing cells, cell n of den d at 16d + n (R71); reset 0. -/
  held : Tab HoldFlag := {}
  /-- Net gates: the last two samples of the enable of global net g at g, of regional net k of region (c, r) at
  32 + 16(8c + r) + k (R114); reset open. -/
  gates : Tab (BitVec 2) := {}
  /-- I/O cell flip-flops, by user pin (R129); reset 0 (DESIGN CHOICE 0, log 1). -/
  io : Tab IoRegs := {}
  /-- Global nets and fabric PLLs of the image (R114, R115, R139); reset none (unconfigured). -/
  clocking : Clocking := {}
deriving DecidableEq, Repr

/-- The whole machine. -/
structure State where
  /-- The commands that wait, first in, first out. Model's own (the block's command queue); reset empty. -/
  pending : List Instr := []
  /-- The answer to the last command that completes an access. Model's own; reset master 0, OK, 0. -/
  bus : Answer := {}
  time : TimeSt := {}
  tbs : Tbs := {}
  clk : Clk := {}
  pwr : Pwr := {}
  ioc : Ioc := {}
  den : DenBlk := {}
  bdg : Bdg := {}
  vnx : Vnx := {}
  brw : Brw := {}
  mem : MemBlk := {}
  lan : Lan := {}
  spn : Spn := {}
  /-- The 24 MACs (chapter 11). -/
  mac : Tab MacSt := {}
  hst : Hst := {}
  brk : Brk := {}
  fus : Fus := {}
  evt : Evt := {}
  fab : Fab := {}
  /-- Burrow, TCM and DDR bytes by local address (R204, R221, R227); reset: nothing listed. -/
  ram : Memory := []
  /-- The high words latched for each reading master, by 64 × register address + master (R15, R217, R389); reset 0 (DESIGN CHOICE 0, log 1). -/
  latch : Tab Word := {}
  /-- Free values used so far. Model's own; reset 0 (DESIGN CHOICE, log 4). -/
  fresh : Nat := 0
deriving DecidableEq, Repr

/-- The reasons the block could stop with a fault: none, for every row of the table has an effect or answers an error. -/
inductive Fault where
deriving DecidableEq, Repr

/-- Why a command has no meaning. -/
inductive Refusal where
  /-- Raised by `exec` for a row that has no meaning yet (safe: no claim covers it). -/
  | notModelled (mnemonic : String)
deriving DecidableEq, Repr

/-- The factory fuse words of the part: an FD96-2-I of stepping A, every identity field 0, with its ID_CRC
(DESIGN CHOICE, notes/assumptions/2.md). -/
def factoryFuses : Tab Word := { cells := [(2, 0xC0), (3, 0x678A0000)] }

/-- The machine right after reset: SENSE, entered from RAMP at power-on (Table 3.12). -/
def State.reset : State :=
  { fus := { array := factoryFuses, latched := factoryFuses }
    evt := { hdrs := { cells := [(0, some { hseq := 1, boots := 1 })] } } }

end Sys2Proof.Machine
end

