-- ==== Sys2Proof/Machine/Ops.lean ====
section
/-! DEFINITION. The named operations every meaning is written with: sparse tables, memory, bit fields, counters,
the passage of local time, and one update function per part of the state. -/

namespace Sys2Proof

/-- The error codes of Table 7.4. -/
def Err.code : Err → Nat
  | .ok => 0 | .accessDenied => 1 | .decode => 2 | .bankOff => 3 | .denGone => 4 | .hostTimeout => 5
  | .hostError => 6 | .remoteUnreachable => 7 | .poison => 8 | .busy => 9 | .queueOff => 10

end Sys2Proof

namespace Sys2Proof.Machine

/-! ## Cells: sorted association lists -/

/-- The value a list of cells holds at index i. -/
def findCell {α : Type} (i : Nat) : List (Nat × α) → Option α
  | [] => none
  | (j, v) :: r => if j = i then some v else findCell i r

/-- Put a value at index i, keeping indices in rising order. -/
def insertCell {α : Type} (i : Nat) (v : α) : List (Nat × α) → List (Nat × α)
  | [] => [(i, v)]
  | (j, w) :: r =>
    if i < j then (i, v) :: (j, w) :: r
    else if j = i then (i, v) :: r
    else (j, w) :: insertCell i v r

/-- Drop what index i holds. -/
def eraseCell {α : Type} (i : Nat) : List (Nat × α) → List (Nat × α)
  | [] => []
  | (j, w) :: r => if j = i then eraseCell i r else (j, w) :: eraseCell i r

/-- Indices strictly rise, each above `lo`, and no cell holds the default. -/
def cellsWf {α : Type} [DecidableEq α] (d : α) : Option Nat → List (Nat × α) → Bool
  | _, [] => true
  | lo, (j, v) :: r => (match lo with | none => true | some l => decide (l < j)) && decide (v ≠ d) && cellsWf d (some j) r

/-- What a table holds at index i, with default d. -/
def Tab.getD {α : Type} (t : Tab α) (i : Nat) (d : α) : α := (findCell i t.cells).getD d

/-- Store v at index i of a table with default d; storing the default removes the entry. -/
def Tab.set {α : Type} [DecidableEq α] (t : Tab α) (d : α) (i : Nat) (v : α) : Tab α :=
  if v = d then ⟨eraseCell i t.cells⟩ else ⟨insertCell i v t.cells⟩

/-- Apply f to what index i holds. -/
def Tab.mod {α : Type} [DecidableEq α] (t : Tab α) (d : α) (i : Nat) (f : α → α) : Tab α :=
  t.set d i (f (t.getD i d))

/-- The canonical form of a table with default d. -/
def Tab.wf {α : Type} [DecidableEq α] (d : α) (t : Tab α) : Bool := cellsWf d none t.cells

/-- One byte of memory; an address that is not listed reads 0 (DESIGN CHOICE, unsafe, notes/assumptions/10.md). -/
def Memory.read (m : Memory) (a : Nat) : Byte := (findCell a m).getD 0

/-- Write one byte, keeping the canonical form. -/
def Memory.write (m : Memory) (a : Nat) (b : Byte) : Memory :=
  if b = 0 then eraseCell a m else insertCell a b m

/-- The canonical form of memory. -/
def Memory.wf (m : Memory) : Bool := cellsWf (0 : Byte) none m

/-- n bytes from address a up. -/
def Memory.readN (m : Memory) (a : Nat) : Nat → List Byte
  | 0 => []
  | n + 1 => Memory.read m a :: Memory.readN m (a + 1) n

/-- Write bytes from address a up. -/
def Memory.writeN (m : Memory) (a : Nat) : List Byte → Memory
  | [] => m
  | b :: r => Memory.writeN (Memory.write m a b) (a + 1) r

/-! ## Bits and bytes -/

/-- Bits lo to lo + n − 1 of a number. -/
def bits (x lo n : Nat) : Nat := x / 2 ^ lo % 2 ^ n

/-- Bits lo to lo + n − 1 of a word. -/
def field {w : Nat} (x : BitVec w) (lo n : Nat) : Nat := bits x.toNat lo n

/-- A 32-bit word from fields, each placed at its lowest bit. -/
def ofFields (l : List (Nat × Nat)) : Word := BitVec.ofNat 32 (l.foldl (fun a p => a ||| p.2 <<< p.1) 0)

/-- A number of 8 × l.length bits, least significant byte first. -/
def leNat : List Byte → Nat
  | [] => 0
  | b :: r => b.toNat + 256 * leNat r

/-- The n least significant bytes of x, least significant first. -/
def leBytes (x : Nat) : Nat → List Byte
  | 0 => []
  | n + 1 => BitVec.ofNat 8 x :: leBytes (x / 256) n

/-- A little-endian number of n bytes at offset o of a byte list; bytes past its end count as 0. -/
def leAt (l : List Byte) (o n : Nat) : Nat := leNat ((l.drop o).take n)

/-- Bit i of a 0/1 list counted from the least significant bit. -/
def setBit {w : Nat} (x : BitVec w) (i : Nat) (v : Bool) : BitVec w :=
  if v then x ||| BitVec.ofNat w (2 ^ i) else x &&& ~~~ BitVec.ofNat w (2 ^ i)

/-- The number of bits set among bits 0 to n − 1 of x. -/
def popCount (x : Nat) (n : Nat) : Nat := ((List.range n).filter fun i => x.testBit i).length

/-- The lowest bit set among bits 0 to n − 1 of x. -/
def lowestBit (x : Nat) (n : Nat) : Nat := ((List.range n).find? fun i => x.testBit i).getD 0

/-- Count up by k and stay at the top (a saturating counter, Table 16.7). -/
def satAdd {w : Nat} (x : BitVec w) (k : Nat) : BitVec w :=
  if x.toNat + k < 2 ^ w then BitVec.ofNat w (x.toNat + k) else BitVec.allOnes w

/-- Count up by 1 and stay at the top. -/
def satInc {w : Nat} (x : BitVec w) : BitVec w := satAdd x 1

/-- One byte of a CRC shifted most significant bit first, without reflection (R357). -/
def crcMsbStep (width poly : Nat) (crc : Nat) (bit : Bool) : Nat :=
  let top := crc.testBit (width - 1)
  let sh := (crc * 2) % 2 ^ width
  if top != bit then sh ^^^ poly else sh

/-- CRC-16, polynomial 0x1021, initial value 0xFFFF, over a list of bits in order (R357). -/
def crc16 (l : List Bool) : Nat := l.foldl (crcMsbStep 16 0x1021) 0xFFFF

/-- One bit of the reflected CRC-32. -/
def crc32Bit : Nat → Nat → Nat
  | 0, c => c
  | n + 1, c => crc32Bit n (if c.testBit 0 then (c / 2) ^^^ 0xEDB88320 else c / 2)

/-- CRC-32 with the IEEE 802.3 polynomial (R84, R393). -/
def crc32 (l : List Byte) : Nat :=
  (l.foldl (fun c b => crc32Bit 8 (c ^^^ b.toNat)) 0xFFFFFFFF) ^^^ 0xFFFFFFFF

/-- The first 28 bytes of a Ledger record (Table 16.4). -/
def LedgerRec.bytes (r : LedgerRec) : List Byte :=
  [r.type, 1] ++ leBytes r.boots.toNat 2 ++ leBytes r.stamp.toNat 8 ++ leBytes r.a.toNat 4 ++ leBytes r.b.toNat 8 ++
    leBytes 0 4

/-- The CRC of a Ledger record is right (R396). -/
def LedgerRec.good (r : LedgerRec) : Bool := crc32 r.bytes == r.crc.toNat

/-- The same record with its right CRC. -/
def LedgerRec.seal (r : LedgerRec) : LedgerRec := { r with crc := BitVec.ofNat 32 (crc32 r.bytes) }

/-! ## Codes -/

/-- The mode codes of Table 3.1. -/
def Mode.code : Mode → Nat
  | .off => 0 | .ramp => 1 | .sense => 2 | .lock => 3 | .load => 4 | .verify => 5 | .release => 6 | .run => 7
  | .sleep => 8 | .deep => 9 | .hold => 10 | .stop => 11

/-- The codes of `PWR_LAST_CAUSE` (Table 3.11). -/
def Cause.code : Cause → Nat
  | .powerOn => 0 | .pinReset => 1 | .railLoss => 2 | .clockReset => 3 | .stop => 4

/-! ## One update function per part of the state -/

def State.modTime (s : State) (f : TimeSt → TimeSt) : State := { s with time := f s.time }
def State.modTbs (s : State) (f : Tbs → Tbs) : State := { s with tbs := f s.tbs }
def State.modClk (s : State) (f : Clk → Clk) : State := { s with clk := f s.clk }
def State.modPwr (s : State) (f : Pwr → Pwr) : State := { s with pwr := f s.pwr }
def State.modIoc (s : State) (f : Ioc → Ioc) : State := { s with ioc := f s.ioc }
def State.modDenBlk (s : State) (f : DenBlk → DenBlk) : State := { s with den := f s.den }
def State.modBdg (s : State) (f : Bdg → Bdg) : State := { s with bdg := f s.bdg }
def State.modVnx (s : State) (f : Vnx → Vnx) : State := { s with vnx := f s.vnx }
def State.modBrw (s : State) (f : Brw → Brw) : State := { s with brw := f s.brw }
def State.modMem (s : State) (f : MemBlk → MemBlk) : State := { s with mem := f s.mem }
def State.modLan (s : State) (f : Lan → Lan) : State := { s with lan := f s.lan }
def State.modSpn (s : State) (f : Spn → Spn) : State := { s with spn := f s.spn }
def State.modMacs (s : State) (f : Tab MacSt → Tab MacSt) : State := { s with mac := f s.mac }
def State.modHst (s : State) (f : Hst → Hst) : State := { s with hst := f s.hst }
def State.modBrk (s : State) (f : Brk → Brk) : State := { s with brk := f s.brk }
def State.modFus (s : State) (f : Fus → Fus) : State := { s with fus := f s.fus }
def State.modEvt (s : State) (f : Evt → Evt) : State := { s with evt := f s.evt }
def State.modFab (s : State) (f : Fab → Fab) : State := { s with fab := f s.fab }
def State.modRam (s : State) (f : Memory → Memory) : State := { s with ram := f s.ram }
def State.setLatch (s : State) (t : Tab Word) : State := { s with latch := t }
def State.setBus (s : State) (a : Answer) : State := { s with bus := a }
def State.setFresh (s : State) (n : Nat) : State := { s with fresh := n }
def State.setPending (s : State) (l : List Instr) : State := { s with pending := l }

/-- Put the completion of an access where its sender sees it. -/
def State.answer (s : State) (m : MasterId) (e : Err) (d : Word) : State :=
  s.setBus { master := m, err := e, data := d }

/-- The next free value of the run, and the state that has used it (notes/assumptions/4.md). -/
def State.free (s : State) : BitVec 64 := Config.freeValue s.fresh

/-- The free value s.free has been used. -/
def State.useFree (s : State) : State := s.setFresh (s.fresh + 1)

/-! ## Accessors of the tables of units -/

def State.denAt (s : State) (d : Nat) : Den := s.den.dens.getD d {}
def State.modDen (s : State) (d : Nat) (f : Den → Den) : State :=
  s.modDenBlk fun b => { b with dens := b.dens.mod {} d f }
def State.bankAt (s : State) (b : Nat) : Bank := s.brw.banks.getD b {}
def State.modBank (s : State) (b : Nat) (f : Bank → Bank) : State :=
  s.modBrw fun w => { w with banks := w.banks.mod {} b f }
def State.chAt (s : State) (c : Nat) : Channel := s.mem.ch.getD c {}
def State.modCh (s : State) (c : Nat) (f : Channel → Channel) : State :=
  s.modMem fun m => { m with ch := m.ch.mod {} c f }
def State.dqAt (s : State) (q : Nat) : Dq := s.mem.dq.getD q {}
def State.modDq (s : State) (q : Nat) (f : Dq → Dq) : State :=
  s.modMem fun m => { m with dq := m.dq.mod {} q f }
def State.laneAt (s : State) (n : Nat) : Lane := s.lan.lanes.getD n {}
def State.modLane (s : State) (n : Nat) (f : Lane → Lane) : State :=
  s.modLan fun l => { l with lanes := l.lanes.mod {} n f }
def State.linkAt (s : State) (k : Nat) : Link := s.spn.links.getD k {}
def State.modLink (s : State) (k : Nat) (f : Link → Link) : State :=
  s.modSpn fun p => { p with links := p.links.mod {} k f }
def State.macAt (s : State) (m : Nat) : MacSt := s.mac.getD m {}
def State.modMac (s : State) (m : Nat) (f : MacSt → MacSt) : State := s.modMacs fun t => t.mod {} m f
def State.portAt (s : State) (m p : Nat) : MacPort := (s.macAt m).ports.getD p {}
def State.modPort (s : State) (m p : Nat) (f : MacPort → MacPort) : State :=
  s.modMac m fun x => { x with ports := x.ports.mod {} p f }
/-- Queue q of a MAC: TX queues 0–15, RX queues at 16 + q. -/
def State.macQAt (s : State) (m q : Nat) : MacQ := (s.macAt m).queues.getD q {}
def State.modMacQ (s : State) (m q : Nat) (f : MacQ → MacQ) : State :=
  s.modMac m fun x => { x with queues := x.queues.mod {} q f }
def State.pinAt (s : State) (n : Nat) : TrigPin := s.ioc.trig.getD n {}
def State.modPin (s : State) (n : Nat) (f : TrigPin → TrigPin) : State :=
  s.modIoc fun i => { i with trig := i.trig.mod {} n f }
/-- Pair 0 is Brock-A, pair 1 Brock-B. -/
def State.pairAt (s : State) (p : Nat) : Pair := if p = 0 then s.brk.a else s.brk.b
def State.modPair (s : State) (p : Nat) (f : Pair → Pair) : State :=
  s.modBrk fun b => if p = 0 then { b with a := f b.a } else { b with b := f b.b }
def State.actAt (s : State) (i : Nat) : ActEntry := s.tbs.table.getD i {}
def State.modAct (s : State) (i : Nat) (f : ActEntry → ActEntry) : State :=
  s.modTbs fun t => { t with table := t.table.mod {} i f }

/-! ## Modes -/

def State.mode (s : State) : Mode := s.pwr.mode

/-- Apply f for each index below n, in rising order. -/
def forN (n : Nat) (f : Nat → State → State) (s : State) : State := (List.range n).foldl (fun s i => f i s) s

/-- The device is powered and past RAMP, so its blocks work: every mode but OFF and RAMP (Table 3.1). -/
def State.on (s : State) : Bool := s.mode != .off && s.mode != .ramp

/-- RELEASE and after, where a design may run: the rows "RELEASE onward" of Table 3.2. -/
def Mode.releaseOn : Mode → Bool
  | .release | .run | .sleep | .deep | .hold | .stop => true
  | _ => false

/-- k on a device that is on; nothing happens on one that is OFF or in RAMP. -/
def State.whenOn (s : State) (k : State → State) : State := if s.on then k s else s

/-! ## Fuses (Table 14.5) -/

/-- Bit i of a fuse array. -/
def fuseBit (t : Tab Word) (i : Nat) : Bool := (t.getD (i / 32) 0).getLsbD (i % 32)

/-- n fuse bits from bit lo up, the lowest the least significant. -/
def fuseField (t : Tab Word) (lo n : Nat) : Nat :=
  (List.range n).foldl (fun a i => if fuseBit t (lo + i) then a + 2 ^ i else a) 0

def State.fuse (s : State) (lo n : Nat) : Nat := fuseField s.fus.latched lo n
def State.ledgerDis (s : State) : Bool := fuseBit s.fus.latched 4291
/-- The fused ceiling OP: OP3 − CEIL_DOWN (Table 14.5). -/
def State.ceiling (s : State) : Nat := 3 - s.fuse 4288 2
/-- AVS_TRIM magnitude, at most 8 (R358). -/
def State.trim (s : State) : Nat := min (s.fuse 80 4) 8

/-- ID_CRC of R357 holds over a fuse array and SPEED is not 0. -/
def idOk (t : Tab Word) : Bool :=
  crc16 ((List.range 112).map (fuseBit t)) == fuseField t 112 16 && fuseField t 69 2 != 0

/-! ## Time -/

/-- Slew steps of R13 that fall in n TMB cycles: at most one in every 40. -/
def steerSteps (steer : Int) (gap n : Nat) : Nat :=
  if n = 0 then 0 else min steer.natAbs ((gap + n - 1) / 40)

/-- System time runs: it has started, and the TMB domain is not stopped (R12, R50). -/
def TimeSt.runs (t : TimeSt) : Bool := t.sysOn && !t.tmbOff

/-- n ns of local time pass on the counters of time (R12, R13, R400). -/
def TimeSt.pass (t : TimeSt) (n : Nat) : TimeSt :=
  let k := if t.runs then steerSteps t.steer t.steerGap n else 0
  let dir : Int := if t.steer < 0 then -1 else 1
  { t with
    now := t.now + n
    aon := t.aon + BitVec.ofNat 48 ((t.aonPhase + n) / 20)
    aonPhase := (t.aonPhase + n) % 20
    sys := if t.runs then t.sys + BitVec.ofInt 72 (256 * n + dir * k) else t.sys
    steer := t.steer - dir * k
    steerGap := min 40 (t.steerGap + n - 40 * k) }

/-- The least n above lo that satisfies a monotone p, looked for among the 2 ^ b numbers that follow lo. -/
def leastAbove (p : Nat → Bool) : Nat → Nat → Nat
  | 0, lo => lo + 1
  | b + 1, lo => if p (lo + 2 ^ b) then leastAbove p b lo else leastAbove p b (lo + 2 ^ b)

/-- The TMB cycles until system time has reached d, in 1/256 ns: the slew steps of R13 that fall into them count
(R17). -/
def TimeSt.cyclesTo (t : TimeSt) (d : Nat) : Nat :=
  if d ≤ t.sys.toNat then 0
  else if t.runs && t.steer != 0 then leastAbove (fun n => decide (d ≤ (t.pass n).sys.toNat)) 66 0
  else (d - t.sys.toNat + 255) / 256

/-- The TMB cycles until system time has reached d, in 1/256 ns. -/
def State.cyclesTo (s : State) (d : Nat) : Nat := s.time.cyclesTo d

/-- The MGT domain runs from AON until the MGT PLL has locked, and while it or its reference has failed (R50). -/
def State.mgtOnAon (s : State) : Bool := !(s.clk.good.getLsbD 7)

/-! ## Clock domains -/

/-- A wake has come so far that the domains run again: at once from SLEEP, after the PLLs have locked from DEEP (R95). -/
def State.clocksBack (s : State) : Bool := match s.pwr.waking with | some (some _) => true | _ => false

/-- The enable of Table 2.4 that governs a domain in the present mode (R63). -/
def State.gateEn (s : State) (d : Domain) : Bool :=
  match s.mode, s.clocksBack with
  | .deep, false => d == .tmb || d == .aon
  | .sleep, false =>
    match d with
    | .noc => s.clk.nocSleep | .fab => s.clk.fabSleep | .cfg => s.clk.cfgSleep | .mem => s.clk.memSleep
    | .lnk => s.clk.lnkSleep | _ => true
  | _, _ =>
    match d with
    | .fab => s.clk.fabRun | .mem => s.clk.memRun | .lnk => s.clk.lnkRun | _ => true

/-- A domain's source runs (R49, R50, R62). -/
def State.domainSrc (s : State) (d : Domain) : Bool :=
  let g := s.clk.good
  match d with
  | .tmb => s.time.runs
  | .noc => g.getLsbD (if s.clk.standbyB then 4 else 5)
  | .fab => s.clk.fabRows != 0 && (List.range 24).all fun f => !s.clk.fabPlls.getLsbD f || g.getLsbD (40 + f)
  | .cfg => g.getLsbD 6 || s.mgtOnAon
  | .mgt => true
  | .hst => g.getLsbD 8
  | .mem => (List.range 4).any fun c => g.getLsbD (9 + c)
  | .lnk => (List.range 24).any fun q => g.getLsbD (16 + q)
  | .aon => true

/-- A domain's clock runs (`CLK_STATUS`, R63, R64, R72). -/
def State.running (s : State) (d : Domain) : Bool :=
  s.on && s.domainSrc d && (s.gateEn d || s.clk.woken.any fun w => w.1 == d)

/-! ## Time passes -/

/-- MGT cycles in n ns: 800 MHz, or 50 MHz from AON (Table 2.1). -/
def State.mgtCycles (s : State) (n : Nat) : Nat :=
  if s.mgtOnAon then (s.time.aonPhase + n) / 20 else (s.time.now + n) * 4 / 5 - s.time.now * 4 / 5

/-- mcycle counts the pair's clock while it is out of reset, and neither stalled nor halted (R324, R338). -/
def Pair.pass (p : Pair) (c : Nat) : Pair :=
  if p.inReset || p.stalled || p.halted || p.restarting then p else { p with mcycle := p.mcycle + BitVec.ofNat 64 c }

/-- Local time since which FAB has stood still; none while it runs. -/
def State.fabStill (s : State) : Option Nat := if s.running .fab then none else some (s.clk.fabAt.getD s.time.now)

/-- n ns of local TMB time pass: time, the step budget's refill (R100), the cores' cycle counters, and how long FAB has
stood still. -/
def State.advance (s : State) (n : Nat) : State :=
  let c := s.mgtCycles n
  (((s.modClk fun c => { c with fabAt := s.fabStill }).modPwr fun p => { p with tokens := BitVec.ofNat 12 (min p.depth.toNat (p.tokens.toNat + p.didt.toNat * n)) }).modBrk
    fun b => { b with a := b.a.pass c, b := b.b.pass c }).modTime fun t => t.pass n

/-- Local time moves on to t, if t lies ahead. -/
def State.advanceTo (s : State) (t : Nat) : State := s.advance (t - s.time.now)

/-- Local time moves on until `ns` after `from_`. -/
def State.now (s : State) : Nat := s.time.now

/-- Whole ns of system time. -/
def State.sysNs (s : State) : Nat := s.time.sys.toNat / 256

/-- NOC cycles in n ns at the running OP: cycles × 20 per ns of Table 2.5, by speed grade (R65). -/
def State.nocPer20 (s : State) : Nat :=
  match s.clk.op.toNat, s.fuse 69 2 with
  | 0, _ => 20
  | 1, _ => 28
  | 2, _ => 34
  | _, 3 => 40
  | _, 2 => 37
  | _, _ => 34

/-- NOC cycles that fit in n ns. -/
def State.nocCycles (s : State) (n : Nat) : Nat := n * s.nocPer20 / 20

/-- The first whole ns by which c NOC cycles have passed. -/
def State.nocNs (s : State) (c : Nat) : Nat := (c * 20 + s.nocPer20 - 1) / s.nocPer20

/-! ## Lists -/

/-- Remove the first element that satisfies p. -/
def removeFirst {α : Type} (p : α → Bool) : List α → List α
  | [] => []
  | x :: r => if p x then r else x :: removeFirst p r

end Sys2Proof.Machine
end

