-- ==== Sys2Proof/Machine/Flags.lean ====
section
/-! DEFINITION. The flags the block raises: every event of Table 16.3 with its code, and how an event enters the
input queue of the logger (R384 to R387). -/

namespace Sys2Proof.Machine

/-- The events of Table 16.3. -/
inductive Ev where
  | tbsLateDrop | tbsLateRun | tbsAction | tbsActionConflict | tbsRealign | tbsRoleConflict | tbsNoMaster
  | tbsOverrun | tbsHoldover | tbsPeriodMismatch | tbsTickMismatch | clkGood | clkOpClipped | clkOpFail
  | clkFail | clkAonFail | pwrReleaseLate | pwrSleepAbort | pwrWake | pwrWakeReject | pwrPinReset
  | pwrStepClamp | pwrCapClear | pwrVccoLost | pwrReleaseSlip | pwrCapLower | pwrCapAtMin | pwrRailLost
  | pwrStop | cfgSlotReject | cfgNoSlotTable | cfgNoImage | denLoadDone | denSwap | denLoadFail | denSwapAbort
  | denIsolated | denRspTimeout | bdgUeBenign | bdgReloadDone | bdgCeBurst | bdgMapParity | bdgUeShadow
  | bdgReloadFail | bdgRestart | bdgUeEssential | bdgFailed | vnxEpochSwitch | vnxPoison | vnxFlowOrphan
  | vnxEpochRefused | vnxHdrLost | brwRemapDone | brwScrubSlow | brwCeBurst | brwSettCeBurst | brwUe
  | brwSettUe | memRemapDone | memDqStale | memCeBurst | memUe | memDqWriteErr | memTrainFail | lanTrainFail
  | spnLinkUp | spnDelayJump | spnUpstreamSwitch | spnLinkDown | spnForeignMaster | spnRouteViolation
  | spnDevnumConflict | spnNoticeLate | macLinkUp | macRxqStale | macTxtsOvf | macLinkDown | macDescErr
  | hstLinkUp | hstUnexpCpl | hstInErr | hstInTimeout | hstCplTimeout | hstPoisonRx | hstLinkDown | hstLinkErr
  | brkHalt | dbgSession | brkUnchecked | brkMismatch | brkDelayParity | brkTcmParity | brkMismatchStorm
  | prtDenied | fusProgDone | fusProgFail | fusIdBad | evtLedgerErased | evtLedgerFilled | evtLedgerErr
  | evtLost | iocTrigNotTimed | iocVccoMismatch | iocTrigLimit
  /-- `EVT_SOFT`, of the class written to `EVT_RAISE`. -/
  | evtSoft (cls : BitVec 2)
deriving DecidableEq, Repr

/-- The code of an event (R387, Table 16.3). -/
def Ev.code : Ev → BitVec 16
  | .tbsLateDrop => 0x0001 | .tbsLateRun => 0x0002 | .tbsAction => 0x0003 | .tbsActionConflict => 0x0004
  | .tbsRealign => 0x000B | .tbsRoleConflict => 0x8005 | .tbsNoMaster => 0x8006 | .tbsOverrun => 0x8007
  | .tbsHoldover => 0x8008 | .tbsPeriodMismatch => 0x8009 | .tbsTickMismatch => 0xC00A | .clkGood => 0x0101
  | .clkOpClipped => 0x0102 | .clkOpFail => 0x8103 | .clkFail => 0xC104 | .clkAonFail => 0xC105
  | .pwrReleaseLate => 0x0201 | .pwrSleepAbort => 0x0202 | .pwrWake => 0x0203 | .pwrWakeReject => 0x0204
  | .pwrPinReset => 0x0205 | .pwrStepClamp => 0x0206 | .pwrCapClear => 0x0207 | .pwrVccoLost => 0x8208
  | .pwrReleaseSlip => 0x8209 | .pwrCapLower => 0x820A | .pwrCapAtMin => 0x820B | .pwrRailLost => 0xC20C
  | .pwrStop => 0xC20D | .cfgSlotReject => 0x8301 | .cfgNoSlotTable => 0xC302 | .cfgNoImage => 0xC303
  | .denLoadDone => 0x0401 | .denSwap => 0x0402 | .denLoadFail => 0x8403 | .denSwapAbort => 0x8404
  | .denIsolated => 0x8405 | .denRspTimeout => 0x8406 | .bdgUeBenign => 0x0501 | .bdgReloadDone => 0x0502
  | .bdgCeBurst => 0x4503 | .bdgMapParity => 0x8504 | .bdgUeShadow => 0x8505 | .bdgReloadFail => 0x8506
  | .bdgRestart => 0x8507 | .bdgUeEssential => 0xC508 | .bdgFailed => 0xC509 | .vnxEpochSwitch => 0x0601
  | .vnxPoison => 0x8602 | .vnxFlowOrphan => 0x8603 | .vnxEpochRefused => 0x8604 | .vnxHdrLost => 0xC605
  | .brwRemapDone => 0x0701 | .brwScrubSlow => 0x0702 | .brwCeBurst => 0x4703 | .brwSettCeBurst => 0x4704
  | .brwUe => 0x8705 | .brwSettUe => 0x8706 | .memRemapDone => 0x0801 | .memDqStale => 0x0802
  | .memCeBurst => 0x4803 | .memUe => 0x8804 | .memDqWriteErr => 0x8805 | .memTrainFail => 0xC806
  | .lanTrainFail => 0x8901 | .spnLinkUp => 0x0A01 | .spnDelayJump => 0x0A02 | .spnUpstreamSwitch => 0x0A03
  | .spnLinkDown => 0x8A04 | .spnForeignMaster => 0x8A05 | .spnRouteViolation => 0x8A06
  | .spnDevnumConflict => 0xCA07 | .spnNoticeLate => 0xCA08 | .macLinkUp => 0x0B01 | .macRxqStale => 0x0B02
  | .macTxtsOvf => 0x0B03 | .macLinkDown => 0x8B04 | .macDescErr => 0x8B05 | .hstLinkUp => 0x0C01
  | .hstUnexpCpl => 0x0C02 | .hstInErr => 0x8C03 | .hstInTimeout => 0x8C04 | .hstCplTimeout => 0x8C05
  | .hstPoisonRx => 0x8C06 | .hstLinkDown => 0x8C07 | .hstLinkErr => 0xCC08 | .brkHalt => 0x0D01
  | .dbgSession => 0x0D02 | .brkUnchecked => 0x8D03 | .brkMismatch => 0xCD04 | .brkDelayParity => 0xCD05
  | .brkTcmParity => 0xCD06 | .brkMismatchStorm => 0xCD07 | .prtDenied => 0x8E01 | .fusProgDone => 0x0F01
  | .fusProgFail => 0x8F02 | .fusIdBad => 0xCF03 | .evtLedgerErased => 0x1001 | .evtLedgerFilled => 0x9002
  | .evtLedgerErr => 0x9003 | .evtLost => 0x9004 | .iocTrigNotTimed => 0x1101 | .iocVccoMismatch => 0x9102
  | .iocTrigLimit => 0x9103
  | .evtSoft c => BitVec.ofNat 16 (0x4000 * c.toNat + 0x1010)

/-- The class of an event code: 0 INFO, 1 CORRECTED, 2 DEGRADED, 3 FAULT (R385). -/
def codeClass (c : BitVec 16) : Nat := field c 14 2

/-- The block number of an event code (Table 16.2). -/
def codeBlock (c : BitVec 16) : Nat := field c 8 6

/-- The STAMP of an event raised now (Table 16.1). Before system time starts it is `PWR_AON_TIME` × 20 ns. -/
def State.stamp (s : State) : BitVec 64 :=
  if s.time.sysOn then
    BitVec.ofNat 64 (bits s.sysNs 0 62 +
      (if (s.tbs.role == 2 || s.tbs.role == 3) && !s.tbs.aligned then 2 ^ 62 else 0))
  else BitVec.ofNat 64 (bits (s.time.aon.toNat * 20) 0 62 + 2 ^ 63)

/-- The SOURCE of an event (Table 16.1): the device number, and the master whose request or write caused it. -/
def State.source (s : State) (m : Option MasterId) : BitVec 16 :=
  BitVec.ofNat 16 (s.tbs.devNum.toNat + match m with | none => 0 | some x => x.toNat * 256 + 2 ^ 14)

/-- Events of one cycle enter the queue in ascending CODE order (R386): equal stamps are one cycle. -/
def insertEvent (r : EvRec) : List EvRec → List EvRec
  | [] => [r]
  | x :: l => if x.stamp = r.stamp ∧ r.code.toNat < x.code.toNat then r :: x :: l else x :: insertEvent r l

/-- A record enters the 64-entry input queue, or is lost and counted (R386, R389). -/
def Evt.push (e : Evt) (r : EvRec) : Evt :=
  if e.queue.length < 64 then { e with queue := insertEvent r e.queue, raised := e.raised + 1 }
  else { e with lost := satInc e.lost, lostSince := e.lostSince + 1, raised := e.raised + 1, lostAll := e.lostAll + 1 }

/-- Raise an event, for a master whose request or register write caused it directly, or none. -/
def State.raiseBy (s : State) (m : Option MasterId) (e : Ev) (detail : Word) : State :=
  s.modEvt fun x => x.push { stamp := s.stamp, code := e.code, source := s.source m, detail := detail }

/-- Raise an event that no one master's access caused. -/
def State.raise (s : State) (e : Ev) (detail : Word) : State := s.raiseBy none e detail

/-- Raise an event when c holds. -/
def State.raiseIf (s : State) (c : Bool) (e : Ev) (detail : Word) : State := if c then s.raise e detail else s

/-- A leaky bucket after n corrections of one cycle (R222, R223): a count that reaches THRESH resets to 0 and
reports; THRESH = 0 disables the bucket. -/
def bucketAdd (count thresh : BitVec 16) (n : Nat) : BitVec 16 × Bool :=
  if thresh = 0 then (0, false)
  else if thresh.toNat ≤ count.toNat + n then (0, true)
  else (BitVec.ofNat 16 (count.toNat + n), false)

/-- A leaky bucket after a leak tick (R223). -/
def bucketLeak (count : BitVec 16) : BitVec 16 := if count = 0 then 0 else count - 1

end Sys2Proof.Machine
end

