-- ==== Sys2Proof/Machine/Operands.lean ====
section
/-! DEFINITION. The operand forms: packet headers (Table 7.3), the address map (Table 14.1), and the access tables
(R350 to R355). -/

namespace Sys2Proof

/-- The opcodes of Table 7.3. -/
def opRead : BitVec 4 := 0
def opWrite : BitVec 4 := 1
def opAdd : BitVec 4 := 2
def opSwap : BitVec 4 := 3
def opPush : BitVec 4 := 4
def opRsp : BitVec 4 := 8

/-- LEN is the length in bytes, minus 1. -/
def Hdr.bytes (h : Hdr) : Nat := h.len.toNat + 1
def Hdr.isRead (h : Hdr) : Bool := h.opc == opRead
def Hdr.isWrite (h : Hdr) : Bool := h.opc == opWrite
def Hdr.isAtomic (h : Hdr) : Bool := h.opc == opAdd || h.opc == opSwap
def Hdr.isPush (h : Hdr) : Bool := h.opc == opPush

/-- The response to a request: it copies the OPC-independent fields, swaps the device numbers, sets OPC to RSP and
places its outcome in ERR. Data flits travel only with an OK READ response (R185), so the old value of an ADD or SWAP does not
come back (DEDUCED, notes/assumptions/21.md). -/
def Packet.rsp (p : Packet) (e : Err) (data : List Byte) : Packet :=
  { hdr := { p.hdr with opc := opRsp, dstDev := p.hdr.srcDev, srcDev := p.hdr.dstDev, err := BitVec.ofNat 4 e.code }
    data := if e = .ok ∧ p.hdr.isRead then data else [] }

/-- The error a response's ERR field names; codes 11 to 15 are not produced (R189). -/
def errOf (c : BitVec 4) : Err :=
  match c.toNat with
  | 0 => .ok | 1 => .accessDenied | 2 => .decode | 3 => .bankOff | 4 => .denGone | 5 => .hostTimeout
  | 6 => .hostError | 7 => .remoteUnreachable | 9 => .busy | 10 => .queueOff | _ => .poison

/-- The number of data flits a packet has on the trail channel (R185). -/
def Packet.dataFlits (p : Packet) : Nat :=
  if p.hdr.opc == opRsp then (p.data.length + 63) / 64
  else if p.hdr.isRead then 0 else (p.hdr.bytes + 63) / 64

end Sys2Proof

namespace Sys2Proof.Machine

/-! ## Packet headers -/

/-- The 128-bit header, with its reserved bits 0 and the copy of SRC_MASTER, TAG and SRC_DEV (Table 7.3). -/
def packHdr (h : Hdr) : BitVec 128 :=
  h.srcDev ++ h.tag ++ h.src ++ 0#2 ++ h.flow ++ h.err ++ h.len ++ h.addr ++ h.srcDev ++ h.dstDev ++ h.tag ++ h.src ++
    BitVec.ofBool h.guar ++ BitVec.ofBool h.epoch ++ h.opc

/-- The fields of a 128-bit header, read from the places of Table 7.3. -/
def unpackHdr (b : BitVec 128) : Hdr :=
  { opc := b.extractLsb' 0 4, epoch := b.getLsbD 4, guar := b.getLsbD 5, src := b.extractLsb' 6 6
    tag := b.extractLsb' 12 6, dstDev := b.extractLsb' 18 8, srcDev := b.extractLsb' 26 8
    addr := b.extractLsb' 34 48, len := b.extractLsb' 82 12, err := b.extractLsb' 94 4, flow := b.extractLsb' 98 8 }

/-- The copy in bits 127:108 agrees with the fields it copies, and the reserved bits are 0. -/
def hdrWellFormed (b : BitVec 128) : Bool :=
  b.extractLsb' 106 2 == 0#2 && b.extractLsb' 108 6 == b.extractLsb' 6 6 &&
    b.extractLsb' 114 6 == b.extractLsb' 12 6 && b.extractLsb' 120 8 == b.extractLsb' 26 8

/-! ## The address map -/

/-- Capacity in GiB of a declared channel (Table 9.4). -/
def State.chGiB (s : State) (c : Nat) : Nat := field (s.chAt c).cfg 0 8

/-- The total declared DDR capacity in bytes (R227). -/
def State.ddrBytes (s : State) : Nat :=
  (s.chGiB 0 + s.chGiB 1 + s.chGiB 2 + s.chGiB 3) * 2 ^ 30

/-- Effective region bounds of R351 from three fused values: E1, E2, E3. -/
def bounds (cap b1 b2 b3 : Nat) : Nat × Nat × Nat :=
  let b1 := min cap b1
  let b2 := min cap b2
  let b3 := min cap b3
  (b1, max b1 b2, max (max b1 b2) b3)

/-- The Burrow bounds in MiB (R351). -/
def State.brwBounds (s : State) : Nat × Nat × Nat := bounds 64 (s.fuse 4224 7) (s.fuse 4231 7) (s.fuse 4238 7)

/-- The DDR bounds in GiB (R351). -/
def State.ddrBounds (s : State) : Nat × Nat × Nat := bounds 256 (s.fuse 4245 9) (s.fuse 4254 9) (s.fuse 4263 9)

/-- The region, 0 to 3, of a unit number under effective bounds. -/
def regionOf (e : Nat × Nat × Nat) (u : Nat) : Nat :=
  if u < e.1 then 0 else if u < e.2.1 then 1 else if u < e.2.2 then 2 else 3

/-- Where a local address leads (Table 14.1). -/
inductive Place where
  | csr
  /-- Byte offset in the Burrow. -/
  | burrow (o : Nat)
  /-- Pair and byte offset. -/
  | tcm (p o : Nat)
  /-- Den and offset in its window. -/
  | den (d o : Nat)
  | ddr (o : Nat)
  /-- Queue number and offset in its window. -/
  | dq (q o : Nat)
  | macq (o : Nat)
  | host
deriving DecidableEq, Repr

/-- Table 14.1; none is DECODE under R186. -/
def State.place (s : State) (addr : Addr) : Option Place :=
  let a := addr.toNat
  if a < 0x1200000 then some .csr
  else if 0x40000000 ≤ a ∧ a < 0x44000000 then some (.burrow (a - 0x40000000))
  else if 0x50000000 ≤ a ∧ a < 0x50040000 then some (.tcm 0 (a - 0x50000000))
  else if 0x50100000 ≤ a ∧ a < 0x50180000 then some (.tcm 1 (a - 0x50100000))
  else if 0x1000000000 ≤ a ∧ a < 0x4000000000 then some (.den ((a - 0x1000000000) / 2 ^ 32) (a % 2 ^ 32))
  else if 0x10000000000 ≤ a ∧ a < 0x14000000000 then
    if a - 0x10000000000 < s.ddrBytes then some (.ddr (a - 0x10000000000)) else none
  else if 0x14000000000 ≤ a ∧ a < 0x14000400000 then some (.dq ((a - 0x14000000000) / 0x10000) (a % 0x10000))
  else if 0x15000000000 ≤ a ∧ a < 0x15003000000 then some (.macq (a - 0x15000000000))
  else if 0x800000000000 ≤ a then some .host
  else none

/-- The target of a CSR block, by its 1 MiB block number (Table 14.3). -/
def csrTarget (blk : Nat) : Nat :=
  match blk with
  | 0 => 0 | 1 => 0 | 2 => 0 | 3 => 1 | 4 => 1 | 5 => 1 | 6 => 2 | 7 => 3 | 8 => 3 | 9 => 4 | 10 => 4 | 11 => 4
  | 12 => 5 | 13 => 6 | 14 => 7 | 15 => 7 | 16 => 8 | _ => 0

/-- The target of a place (Table 14.3); the queue windows belong to no target, only to their OWNER. -/
def State.target (s : State) (addr : Addr) : Place → Option Nat
  | .csr => some (csrTarget (addr.toNat / 0x100000))
  | .burrow o => some (9 + regionOf s.brwBounds (o / 2 ^ 20))
  | .tcm p _ => some (19 + p)
  | .den d _ => some (21 + d / 6)
  | .ddr o => some (13 + regionOf s.ddrBounds (o / 2 ^ 30))
  | .dq _ _ => none
  | .macq _ => some 29
  | .host => some 17

/-- Local address of a pair's TCM (Table 14.1). -/
def tcmBase (p : Nat) : Nat := if p = 0 then 0x50000000 else 0x50100000

/-! ## Access tables -/

/-- The master a request counts as: 6 when it comes from another device (R275, R348). -/
def State.acting (s : State) (h : Hdr) : MasterId := if h.srcDev = s.tbs.devNum then h.src else 6

/-- The fused deny-read and deny-write bits of a master at a target (Table 14.5). -/
def State.denyRd (s : State) (m : MasterId) (t : Nat) : Bool := fuseBit s.fus.latched (128 + 64 * m.toNat + 2 * t)
def State.denyWr (s : State) (m : MasterId) (t : Nat) : Bool := fuseBit s.fus.latched (129 + 64 * m.toNat + 2 * t)

/-- The access tables deny a master at a target (R350), master 0 at targets 0–8 excepted (R352). -/
def State.denied (s : State) (m : MasterId) (t : Nat) (rd wr : Bool) : Bool :=
  if m = 0 ∧ t ≤ 8 then false else (rd && s.denyRd m t) || (wr && s.denyWr m t)

/-- Writes Table 14.4 denies whatever the fuses hold: `CFG_REFETCH`, `BRK_CTRL`, `FUS_PROG_CMD` except from master
0, the DBG registers of pair A from anyone (R341), and those of pair B from master 1; and `EVT_LEDGER_CMD` except from
master 0 (R399). -/
def protectedWrite (m : MasterId) (addr : Addr) : Bool :=
  let a := addr.toNat
  (m != 0 && (a == 0x300100 || a == 0xD00004 || a == 0xF0000C || a == 0x1000048)) ||
  (0xD01000 ≤ a && a < 0xD01018) || (m == 1 && 0xD01040 ≤ a && a < 0xD01058)

/-- Count a denial and report it at most once a millisecond (R355). -/
def State.deny (s : State) (m : MasterId) (t : Nat) (wr remote : Bool) : State :=
  let det := m.toNat + 256 * t + (if wr then 2 ^ 13 else 0) + (if remote then 2 ^ 14 else 0)
  let due := match s.fus.denyAt with | none => true | some x => x + 1000000 ≤ s.now
  let s := s.modFus fun f => { f with denyCount := satInc f.denyCount, denyLast := BitVec.ofNat 32 (det + 2 ^ 31) }
  if due then
    (s.raiseBy (some m) .prtDenied (BitVec.ofNat 32 (det + 2 ^ 16 * min s.fus.unreported 65535))).modFus fun f =>
      { f with denyAt := some s.now, unreported := 0 }
  else s.modFus fun f => { f with unreported := f.unreported + 1 }

/-- An access of a master on this device to a register: the access tables are checked first (R350, R352), and a denied
access is answered ACCESS_DENIED without effect; otherwise k runs, and answers the access. -/
def State.access (s : State) (m : MasterId) (addr : Addr) (wr : Bool) (k : State → State) : State :=
  s.whenOn fun s =>
    let t := csrTarget (addr.toNat / 0x100000)
    if (wr && protectedWrite m addr) || s.denied m t (!wr) wr then (s.deny m t wr false).answer m .accessDenied 0
    else k s

/-- A request of a master that is not a queue's OWNER is refused and counted (R352, R355). No target covers a decoupling
queue's window, so its denials name the reserved target 31 (notes/assumptions/71.md). -/
def State.denyOwner (s : State) (h : Hdr) (t : Nat) (rd : Bool) : State :=
  s.deny (s.acting h) t (!rd) (h.srcDev != s.tbs.devNum)

/-- A register write that completes with OK. -/
def State.regWrite (s : State) (m : MasterId) (addr : Addr) (k : State → State) : State :=
  s.access m addr true fun s => (k s).answer m .ok 0

/-- A register write that completes with OK or BUSY. -/
def State.regTry (s : State) (m : MasterId) (addr : Addr) (k : State → State × Err) : State :=
  s.access m addr true fun s => (k s).1.answer m (k s).2 0

end Sys2Proof.Machine
end

