-- ==== Sys2Proof/Machine/Fabric.lean ====
section
/-! DEFINITION. The user fabric (R70, R71, R106 to R130): what each element computes, and the clock edges of a design. The
design itself is what the configuration gives (`Config.netlist`, `Config.clocking`), and an idle step of the block clocks it
(notes/assumptions/131.md, notes/assumptions/133.md). -/

namespace Sys2Proof.Machine

/-! ## Floorplan (R106, R107, R138, Tables 4.1 and 5.1) -/

/-- Contents of one clock region (Table 4.1). -/
def regionClusterColumns : Nat := 64
def regionClusterRows : Nat := 80
def regionSettColumns : Nat := 4
def regionSettRows : Nat := 22
def regionBearColumns : Nat := 4
def regionBearRows : Nat := 32
def regionNets : Nat := 16
def regionCrossings : Nat := 64
def regionMultiCrossings : Nat := 8

/-- The two clock regions (column, row) of den d. -/
def denRegions (d : Nat) : List (Nat × Nat) := [(d / 4, 2 * (d % 4)), (d / 4, 2 * (d % 4) + 1)]

/-- The den of clock region (c, r), and of the cluster in fabric column x and row y. -/
def regionDen (c r : Nat) : Nat := 4 * c + r / 2
def clusterDen (x y : Nat) : Nat := regionDen (x / 64) (y / 80)

/-- Where an element lies: its den, its column in the den, and its row in the den from the south. -/
structure Site where
  den : Nat
  column : Nat
  row : Nat
  north : Bool
deriving DecidableEq, Repr

/-- Elements of n columns of 2 × rows in a den, numbered column after column from the south. -/
def site (columns rows : Nat) (i : Nat) : Site :=
  let k := i % (2 * columns * rows)
  let y := k % (2 * rows)
  { den := i / (2 * columns * rows), column := k / (2 * rows), row := y, north := decide (rows ≤ y) }
def clusterSite : Nat → Site := site regionClusterColumns regionClusterRows
def settSite : Nat → Site := site regionSettColumns regionSettRows
def bearSite : Nat → Site := site regionBearColumns regionBearRows

/-- The release group of a place: its row of clock regions (R89). -/
def Site.group (p : Site) : Nat := 2 * (p.den % 4) + p.north.toNat

/-- A carry chain, a Bear cascade or a Sett cascade of n elements keeps its bound and stays in one column of one den, each
element north of the one before (R107, R110, R121, R126). -/
inductive Chain where
  | carry | bear | sett
deriving DecidableEq, Repr
def Chain.longest : Chain → Nat | .carry => 160 | .bear => 64 | .sett => 8
def Chain.site : Chain → Nat → Site | .carry => clusterSite | .bear => bearSite | .sett => settSite
def Chain.next (c : Chain) (i j : Nat) : Bool :=
  decide (j = i + 1) && (c.site i).den == (c.site j).den && (c.site i).column == (c.site j).column
def Chain.fits (c : Chain) (elements : List Nat) : Bool :=
  decide (elements.length ≤ c.longest) && (elements.zip (elements.drop 1)).all fun p => c.next p.1 p.2

/-- Bits of a carry chain through n clusters (R110). -/
def carryBits (n : Nat) : Nat := 16 * n

/-- The den an element's signal comes from. -/
def Sig.den : Sig → Option Nat
  | .const _ | .pin _ _ | .iso _ _ => none
  | .ff n => some (n / 163840)
  | .wire c _ => some (c / 10240)
  | .yf n | .yl n | .carry n _ => some (n / 81920)
  | .acc b _ | .ovf b => some (b / 256)
  | .sett i _ _ => some (i / 176)
  | .gate d _ | .cross d _ | .held d _ _ => some d
  | .raw n _ => some (if n < 48 then n / 12 else 44 + (n - 48) / 12)

/-- A signal reaches den d: from the den itself, between static dens, or through a gate (R107). -/
def Sig.reaches (isStatic : Nat → Bool) (d : Nat) (σ : Sig) : Bool :=
  match σ, σ.den with
  | .gate e _, _ => e == d
  | _, some e => e == d || (isStatic e && isStatic d)
  | .iso e _, none => isStatic d && !isStatic e
  | _, none => true

/-- The global fabric reset and the write block of clock-region row r, as the release stages and R58 leave them (R58, R89). -/
def State.fabricReset (s : State) (r : Nat) : Bool := !s.pwr.rowsRun.getLsbD r
def State.fabricBlocked (s : State) (r : Nat) : Bool := !s.pwr.rowsOpen.getLsbD r

/-! ## Logic cells (R108 to R110) -/

/-- The outputs of a LUT with truth table b: YL reads the low half, YF the half that I5 names (R108). -/
def lutYl (b : BitVec 64) (i : BitVec 5) : Bool := b.getLsbD i.toNat
def lutYf (b : BitVec 64) (i : BitVec 5) (i5 : Bool) : Bool := b.getLsbD (i.toNat + 32 * i5.toNat)

/-- A number from bits, the least significant first. -/
def ofBits : List Bool → Nat
  | [] => 0
  | b :: r => b.toNat + 2 * ofBits r

/-- The cluster's control bundle at one instant: which clocks have their active edge, the enables, the reset lines,
the global fabric reset, and the block on user flip-flops (R89, R109). -/
structure CtlBundle where
  edge : BitVec 2
  enable : BitVec 3
  reset : BitVec 2
  globalReset : Bool
  blocked : Bool
deriving DecidableEq, Repr

/-- A flip-flop's next value (R109). Whether its enable also gates a synchronous reset is not stated: a free value. -/
def FfCfg.next (c : FfCfg) (b : CtlBundle) (yf yl dx q : Bool) : Bool :=
  let rst := match c.reset with | some k => b.reset.getLsbD k | none => false
  let en := match c.enable with | some k => b.enable.getLsbD k | none => true
  if b.globalReset then c.init
  else if b.blocked then q
  else if c.async && rst then c.rstVal
  else if !b.edge.getLsbD c.clk then q
  else if rst && (en || !Config.ffResetGated) then c.rstVal
  else if en then (match c.data with | .yf => yf | .yl => yl | .dx => dx) else q

/-- The clock of a choice has its active edge (R109: each clock has its own polarity). -/
def ClkSel.active (c : ClkSel) (edge : Fin 16 → ClockEdge) : Bool := if c.falling then (edge c.net).fall else (edge c.net).rise

/-! ## Routing and clocks (R111 to R115) -/

/-- A wire register's next value: 0 under the global reset, its input on an edge, else what it holds (R113). -/
def wireNext (globalReset edge d q : Bool) : Bool := if globalReset then false else if edge then d else q

/-- Cycles of a connection with k enabled wire registers (R111). -/
def connectionCycles (k : Nat) : Nat := k + 1

/-- A registered connection: the regions (column, row) and regional nets that clock its flip-flops and enabled wire registers,
in order. It needs one clock: one net within a region, and across regions nets that the same global net drives (R112). -/
def connectionOk (src : Nat × Nat → Fin 16 → NetSource) (hops : List ((Nat × Nat) × Fin 16)) : Bool :=
  match hops with
  | [] => true
  | h :: r => r.all fun k =>
      if k.1 = h.1 then k.2 == h.2
      else match src h.1 h.2, src k.1 k.2 with | .globalNet a, .globalNet b => a == b | _, _ => false

/-- What may drive a global net, and a regional net of region column c (R114, R115). -/
def NetSource.global : NetSource → Bool | .globalNet _ => false | .signal _ => false | _ => true
def NetSource.regional (c : Nat) : NetSource → Bool
  | .globalNet _ => true | .fabricPll n _ => n.val / 2 == c | .signal _ => true | _ => false

/-- A net's glitch-free gate: at each rising edge of the clock, the state that its enable had two cycles before (R114).
Bit 1 says whether the clock passes. -/
def gateNext (g : BitVec 2) (enable : Bool) : BitVec 2 := BitVec.ofNat 2 (2 * (g.getLsbD 0).toNat + enable.toNat)
def gateOpen (g : BitVec 2) : Bool := g.getLsbD 1

/-- n / d lies from lo to hi. -/
def ratioIn (n d lo hi : Nat) : Bool := decide (lo * d ≤ n) && decide (n ≤ hi * d)

/-- The reference of a fabric PLL: REFCLK, a global net or a clock-capable pin (R115). -/
def NetSource.pllRef : NetSource → Bool | .refclk | .globalNet _ | .clockPin _ _ => true | _ => false

/-- A fabric PLL within its limits (R115). -/
def FabPll.ok (p : FabPll) : Bool :=
  p.ref.pllRef && decide (1 ≤ p.div) && ratioIn p.refKHz 1 10000 800000 && ratioIn p.refKHz p.div 10000 200000 &&
    ratioIn (p.refKHz * p.mul) p.div 2000000 4000000 && decide (p.outs.length ≤ 4) &&
    p.outs.all fun o => decide (1 ≤ o.1) && decide (o.1 ≤ 128) && ratioIn (p.refKHz * p.mul) (p.div * o.1) 10000 1000000

/-- The frequency of output k in kHz, and its phase in ps: steps of 1/8 of a VCO period (R115). -/
def FabPll.outKHz (p : FabPll) (k : Nat) : Nat := p.refKHz * p.mul / (p.div * (p.outs.getD k (1, 0)).1)
def FabPll.phasePs (p : FabPll) (k : Nat) : Nat := (p.outs.getD k (1, 0)).2 * 1000000000 * p.div / (8 * p.refKHz * p.mul)

/-- The elements of Table 4.6. -/
inductive FabElement where
  | logic | carryShort | carryLong | settReg | sett | bearInt | bearHalf | gearbox
deriving DecidableEq, Repr

/-- The highest frequency of an element in MHz, by speed grade 1 to 3 (R128). -/
def FabElement.maxMhz (e : FabElement) (grade : Nat) : Nat :=
  match e with
  | .gearbox => 250
  | .carryLong | .sett => if grade = 1 then 560 else if grade = 2 then 630 else 700
  | .bearHalf => if grade = 1 then 640 else if grade = 2 then 720 else 800
  | _ => if grade = 1 then 800 else if grade = 2 then 900 else 1000

/-! ## Crossings (R70, R71) -/

/-- Flip-flops of a hard single-bit crossing, which is also its latency bound in destination cycles, after 1 source cycle. -/
def syncStages (destMhz : Nat) : Nat := if 800 < destMhz then 3 else 2

/-- Flip-flops in a fabric crossing cell: Asungo's choice (R70). -/
def CrossUse.stages (c : CrossUse) : Nat := if c.fast then 3 else 2
def HoldUse.stages (c : HoldUse) : Nat := if c.fast then 3 else 2

/-- A bit moves one stage on. -/
def shiftIn (n : Nat) (b : Bool) (l : List Bool) : List Bool := (b :: l).take n
def lastStage (n : Nat) (l : List Bool) : Bool := l.getD (n - 1) false

/-- A rising edge at the source of a hold-and-flag crossing: the acknowledge moves on, and a new value may go once that of
the last has arrived; until then the value stays (R71). -/
def HoldFlag.source (n : Nat) (send : Bool) (v : BitVec 36) (h : HoldFlag) : HoldFlag :=
  let h := { h with back := shiftIn n h.seen h.back }
  if send && lastStage n h.back == h.flag then { h with value := v, flag := !h.flag } else h

/-- A rising edge at the destination: the flag moves on, and a synchronised flag that differs from the last one takes the
value and toggles the acknowledge (R71). -/
def HoldFlag.dest (n : Nat) (h : HoldFlag) : HoldFlag :=
  let h := { h with there := shiftIn n h.flag h.there }
  if lastStage n h.there != h.seen then { h with taken := h.value, seen := !h.seen } else h

/-! ## CRAM cells (R157) -/

/-- Cell c of row r of a frame holds this bit of this word: (word, bit). -/
def cramCell (r c : Nat) : Nat × Nat := (8 * r + c % 8, c / 8)

/-! ## (72,64) codes (R116, R119, R156) -/

/-- The check bits of 64 data bits: the sum of the columns of the bits that are set. -/
def eccCheck (code : Nat) (x : BitVec 64) : BitVec 8 :=
  (List.range 64).foldl (fun a k => if x.getLsbD k then a ^^^ Config.eccColumn code k else a) 0

/-- A word with its check bits in bits 71:64. -/
def eccWord (code : Nat) (x : BitVec 64) : BitVec 72 := eccCheck code x ++ x

/-- What a read of a 72-bit word finds: the data, corrected where one bit is wrong; a single-bit error; an uncorrectable one.
A wrong data bit shows its column, a wrong check bit that bit alone. -/
def eccRead (code : Nat) (x : BitVec 72) : BitVec 64 × Bool × Bool :=
  let data := x.extractLsb' 0 64
  let syn := x.extractLsb' 64 8 ^^^ eccCheck code data
  if syn = 0 then (data, false, false)
  else match (List.range 64).find? fun k => Config.eccColumn code k == syn with
    | some k => (data ^^^ BitVec.ofNat 64 (2 ^ k), true, false)
    | none => (data, decide (popCount syn.toNat 8 = 1), decide (popCount syn.toNat 8 ≠ 1))

/-! ## Setts (R116 to R122) -/

/-- Write lanes of a width (Table 4.2). -/
def SettWidth.lanes : SettWidth → Nat | .w72 => 8 | .w36 => 4 | .w18 => 2 | .w9 => 1

/-- A port's inputs at one edge of its clock (Table 4.3). `mine`: a cascade's access means this Sett (R121). -/
structure SettIn where
  en : Bool
  we : BitVec 8
  addr : BitVec 13
  din : BitVec 72
  oregCe : Bool
  oregSr : Bool
  mine : Bool := true
deriving DecidableEq, Repr

/-- The word of a Sett that ADDR names, and the first of its lanes (Table 4.2). -/
def SettIn.word (i : SettIn) : Nat := i.addr.toNat / 8
def SettIn.lane (i : SettIn) (w : SettWidth) : Nat := i.addr.toNat % 8 / w.lanes * w.lanes

/-- Lane k of a word. -/
def lane9 (x : BitVec 72) (k : Nat) : BitVec 9 := x.extractLsb' (9 * k) 9

/-- Even parity of a lane's bits 7:0 (R118). -/
def laneParity (x : BitVec 9) : Bool := popCount x.toNat 8 % 2 == 1

/-- The lane that a port stores in lane k of a word, if it writes it (R116, R118, R119). -/
def SettPort.writes (m : SettMode) (p : SettPort) (i : SettIn) (k : Nat) : Option (BitVec 9) :=
  if !i.en || !i.mine then none
  else match m with
    | .ecc => if i.we.getLsbD 0 then some (lane9 (eccWord 0 (i.din.extractLsb' 0 64)) k) else none
    | _ =>
      let b := i.lane p.width
      if b ≤ k ∧ k < b + p.width.lanes ∧ i.we.getLsbD (k - b) then
        let x := lane9 i.din (k - b)
        some (if m = .parity then BitVec.ofNat 9 (x.toNat % 256 + 256 * (laneParity x).toNat) else x)
      else none

/-- A word with the lanes replaced that `f` gives. -/
def withLanes (x : BitVec 72) (f : Nat → Option (BitVec 9)) : BitVec 72 :=
  BitVec.ofNat 72 ((List.range 8).foldl (fun a k => a + ((f k).getD (lane9 x k)).toNat * 2 ^ (9 * k)) 0)

/-- What a word shows at a port: the lanes of its width from bit 0, with their parity mismatches; in ECC mode the data,
corrected where one bit is wrong, and what the read found (R118, R119). -/
def SettPort.shows (m : SettMode) (p : SettPort) (i : SettIn) (x : BitVec 72) : SettOut :=
  match m with
  | .ecc =>
    let r := eccRead 0 x
    { dout := r.1.setWidth 72, sbe := r.2.1, dbe := r.2.2, live := true }
  | _ =>
    let y := BitVec.ofNat 72 (x.toNat / 2 ^ (9 * i.lane p.width) % 2 ^ (9 * p.width.lanes))
    let bad (k : Nat) : Bool := decide (k < p.width.lanes) && laneParity (lane9 y k) != (lane9 y k).getLsbD 8
    { dout := y, live := true
      perr := if m = .parity then BitVec.ofNat 8 ((List.range 8).foldl (fun a k => a + (bad k).toNat * 2 ^ k) 0) else 0 }

/-- What a port has to offer: its output register where the image uses it, else the read's last stage (R117). -/
def SettStages.shown (m : SettMode) (p : SettPort) (s : SettStages) : SettOut :=
  if p.oreg then s.oreg else if m = .ecc then s.second else s.first

/-- One edge of a port's clock, over the word as it was before the edge: a read by one port of a word that the other writes
gives the old data (chapter 4, corner). The second stage of ECC mode takes the read of the edge before, whatever EN is now
(R117). HOLD_OUT keeps DOUT and leaves the output register unloaded (R120). OREG_SR acts whatever OREG_CE and EN are, and
clears PERR, SBE and DBE with the data (DESIGN CHOICE: Table 4.3 gives the reset to SRVAL alone, notes/assumptions/133.md).
A cascade's register takes the Sett's own access, or what comes from the south (R121). -/
def SettStages.clock (m : SettMode) (p : SettPort) (i : SettIn) (old : BitVec 72) (south : SettOut) (s : SettStages) : SettStages :=
  let mine := p.writes m i
  let writing := (List.range 8).any fun k => (mine k).isSome
  let held := writing && p.onWrite == .holdOut
  let got := p.shows m i (if writing ∧ p.onWrite = .newData then withLanes old mine else old)
  let before := if m = .ecc then s.second else s.first
  let own := s.shown m p
  { first := if held then s.first else if i.en && i.mine then got else { s.first with live := s.first.live && !i.en }
    second := if held then s.second else s.first
    oreg := if i.oregSr then { dout := p.srval, live := before.live } else if i.oregCe && !held then before else s.oreg
    casc := if own.live then own else south }

/-- Both ports write at one common edge: port A prevails lane by lane (chapter 4, corner). -/
def settStore (m : SettMode) (a b : SettPort) (i j : SettIn) (t : Tab (BitVec 72)) (sett : Nat) : Tab (BitVec 72) :=
  let put (t : Tab (BitVec 72)) (w : Nat) (f : Nat → Option (BitVec 9)) :=
    t.set 0 (1024 * sett + w) (withLanes (t.getD (1024 * sett + w) 0) f)
  put (put t j.word (b.writes m j)) i.word (a.writes m i)

/-- A port whose write enables are blocked reads only (R89, R122, R150). -/
def SettIn.block (i : SettIn) (blocked : Bool) : SettIn := if blocked then { i with we := 0 } else i

/-- One Sett at an edge of port A's clock, of port B's, or of both; `south` gives what the two ports of the Sett below pass
up. A port without an edge does nothing. -/
def settClock (u : SettUse) (i j : Option SettIn) (south : Bool → SettOut) (sett : Nat) (f : Fab) : Fab :=
  let idle : SettIn := { en := false, we := 0, addr := 0, din := 0, oregCe := false, oregSr := false }
  let word (x : SettIn) : BitVec 72 := f.sett.getD (1024 * sett + x.word) 0
  let go (t : Tab SettStages) (p : Bool) (c : SettPort) (x : Option SettIn) : Tab SettStages :=
    match x with
    | none => t
    | some x => t.mod {} (2 * sett + p.toNat) fun r => r.clock u.mode c x (word x) (south p)
  { f with
    sett := settStore u.mode u.a.port u.b.port (i.getD idle) (j.getD idle) f.sett sett
    port := go (go f.port false u.a.port i) true u.b.port j }

/-- Read latency in cycles, with n Setts in cascade behind the first (R117, R121). -/
def settLatency (m : SettMode) (oreg : Bool) (n : Nat) : Nat := (if m = .ecc then 2 else 1) + oreg.toNat + n

/-- Words of a cascade of n Setts at a width: 8 of width 9 give 65,536 (R121). -/
def cascadeDepth (w : SettWidth) (n : Nat) : Nat := n * (8192 / w.lanes)

/-! ## Bears in half-precision mode (R127) -/

/-- A floating-point value: finite ones are m × 2^e with a sign. -/
inductive Fp where
  | nan (signalling : Bool)
  | inf (neg : Bool)
  | fin (neg : Bool) (m : Nat) (e : Int)
deriving DecidableEq, Repr

/-- A binary format's bits: subnormals are zero of the same sign. -/
def fpDecode (eb mb : Nat) (x : Nat) : Fp :=
  let neg := x.testBit (eb + mb)
  let e := x / 2 ^ mb % 2 ^ eb
  let m := x % 2 ^ mb
  if e = 2 ^ eb - 1 then (if m = 0 then .inf neg else .nan (!m.testBit (mb - 1)))
  else if e = 0 then .fin neg 0 0
  else .fin neg (2 ^ mb + m) ((e : Int) - (2 ^ (eb - 1) - 1 : Nat) - mb)

/-- Binary32, with whether a NaN was invalid or the value overflowed; rounded to nearest, ties to even, and a subnormal
result is zero of the same sign. A result counts as subnormal by its value after rounding (DESIGN CHOICE: R127 does not say
whether before or after, notes/assumptions/133.md). -/
def fpRound (f : Fp) : BitVec 32 × Bool :=
  let bits (neg : Bool) (x : Nat) : BitVec 32 := BitVec.ofNat 32 (2 ^ 31 * neg.toNat + x)
  match f with
  | .nan s => (0x7FC00000, s)
  | .inf neg => (bits neg 0x7F800000, false)
  | .fin neg m e =>
    if m = 0 then (bits neg 0, false)
    else
      let k := m.log2
      let q := if k ≤ 23 then m * 2 ^ (23 - k)
        else
          let d := k - 23
          let q := m / 2 ^ d
          let r := m % 2 ^ d
          if 2 ^ (d - 1) < r ∨ (r = 2 ^ (d - 1) ∧ q % 2 = 1) then q + 1 else q
      let x : Int := k + e + if q = 2 ^ 24 then 1 else 0
      if 127 < x then (bits neg 0x7F800000, true)
      else if x < -126 then (bits neg 0, false)
      else (bits neg ((x + 127).toNat * 2 ^ 23 + q % 2 ^ 23), false)

/-- The exact product; an invalid operation gives a NaN that says so. -/
def fpMul (a b : Fp) : Fp :=
  match a, b with
  | .nan s, .nan t => .nan (s || t)
  | .nan s, _ => .nan s
  | _, .nan s => .nan s
  | .inf x, .inf y => .inf (x != y)
  | .inf x, .fin y m _ => if m = 0 then .nan true else .inf (x != y)
  | .fin y m _, .inf x => if m = 0 then .nan true else .inf (x != y)
  | .fin x m e, .fin y n f => .fin (x != y) (m * n) (e + f)

/-- The exact sum; zero sums are +0 but for the sum of two negative zeros. -/
def fpAdd (a b : Fp) : Fp :=
  match a, b with
  | .nan s, .nan t => .nan (s || t)
  | .nan s, _ => .nan s
  | _, .nan s => .nan s
  | .inf x, .inf y => if x = y then .inf x else .nan true
  | .inf x, _ => .inf x
  | _, .inf x => .inf x
  | .fin x m e, .fin y n f =>
    let lo := min e f
    let val (neg : Bool) (m : Nat) (e : Int) : Int := (if neg then -1 else 1) * (m * 2 ^ (e - lo).toNat : Nat)
    let v := val x m e + val y n f
    if v = 0 then .fin (x && y) 0 0 else .fin (decide (v < 0)) v.natAbs lo

/-- One multiply and add of half-precision mode, in binary32; the flag is an overflow or an invalid operation. -/
def bearMac (bf16 : Bool) (src : BitVec 32) (x y : BitVec 16) : BitVec 32 × Bool :=
  let dec (v : BitVec 16) : Fp := if bf16 then fpDecode 8 7 v.toNat else fpDecode 5 10 v.toNat
  let p := fpRound (fpMul (dec x) (dec y))
  let r := fpRound (fpAdd (fpDecode 8 23 src.toNat) (fpDecode 8 23 p.1.toNat))
  (r.1, p.2 || r.2)

/-- The accumulator after DUAL, and after DOT; its other bits stay. -/
def bearDual (bf16 : Bool) (acc src : BitVec 72) (x0 x1 y0 y1 : BitVec 16) : BitVec 72 × Bool :=
  let lo := bearMac bf16 (BitVec.ofNat 32 src.toNat) x0 y0
  let hi := bearMac bf16 (BitVec.ofNat 32 (src.toNat / 2 ^ 32)) x1 y1
  (BitVec.ofNat 72 (acc.toNat / 2 ^ 64 * 2 ^ 64 + hi.1.toNat * 2 ^ 32 + lo.1.toNat), lo.2 || hi.2)
def bearDot (bf16 : Bool) (acc src : BitVec 72) (x0 x1 y0 y1 : BitVec 16) : BitVec 72 × Bool :=
  let a := bearMac bf16 (BitVec.ofNat 32 src.toNat) x0 y0
  let b := bearMac bf16 a.1 x1 y1
  (BitVec.ofNat 72 (acc.toNat / 2 ^ 32 * 2 ^ 32 + b.1.toNat), a.2 || b.2)

/-! ## Bears (R123 to R127) -/

/-- The pre-adder's function, the accumulate source and the sign. -/
inductive BearPre where
  | add | sub | rsub | bypass
deriving DecidableEq, Repr
inductive BearSrc where
  | zero | acc | e | cin | cinShift
deriving DecidableEq, Repr
structure BearMode where
  pre : BearPre
  src : BearSrc
  minus : Bool
deriving DecidableEq, Repr

/-- What a value of BMODE selects (R123 gives no codes: free values). -/
def bearMode (b : BitVec 7) : BearMode :=
  let c := Config.bearModeCode b
  { pre := (match c.1.val with | 0 => .add | 1 => .sub | 2 => .rsub | _ => .bypass)
    src := (match c.2.1.val with | 0 => .zero | 1 => .acc | 2 => .e | 3 => .cin | _ => .cinShift)
    minus := c.2.2 }

/-- A Bear's inputs at one edge; `ce` has the bits of `bypass`. -/
structure BearIn where
  s : BitVec 30
  t : BitVec 29
  g : BitVec 22
  e : BitVec 72
  cin : BitVec 72
  sin : BitVec 30
  mode : BitVec 7
  ce : BitVec 8
  reset : Bool
  globalReset : Bool
  blocked : Bool
deriving DecidableEq, Repr

/-- The pre-adder (R123). -/
def BearPre.apply (f : BearPre) (s : BitVec 30) (t : BitVec 29) : BitVec 30 :=
  let x := (s.extractLsb' 0 29).signExtend 30
  let y := t.signExtend 30
  match f with | .add => x + y | .sub => x - y | .rsub => y - x | .bypass => s

/-- The accumulate source (R123). -/
def BearSrc.value (f : BearSrc) (shift30 : Bool) (acc e cin : BitVec 72) : BitVec 72 :=
  match f with
  | .zero => 0 | .acc => acc | .e => e | .cin => cin | .cinShift => cin.sshiftRight (if shift30 then 30 else 22)

/-- What half-precision mode adds to: ACC, +0 or CIN (R127); another source of BMODE gives a free value. -/
def BearSrc.half (f : BearSrc) (mode : BitVec 7) (acc cin : BitVec 72) : BitVec 72 :=
  match f with | .zero => 0 | .acc => acc | .cin => cin | _ => Config.halfSource mode

/-- 72 bits from an exact result: wrapped or saturated, and whether it passed a bound (R125). -/
def bearNarrow (sat : Bool) (x : Int) : BitVec 72 × Bool :=
  let past := decide (x < -(2 ^ 71)) || decide (2 ^ 71 ≤ x)
  (if sat ∧ past then (if x < 0 then BitVec.ofNat 72 (2 ^ 71) else BitVec.ofNat 72 (2 ^ 71 - 1)) else BitVec.ofInt 72 x, past)

/-- The values that the stages of a Bear see: a bypassed register passes its input (R124, R126). -/
structure BearStage where
  s : BitVec 30
  t : BitVec 29
  g : BitVec 22
  e : BitVec 72
  mode : BitVec 7
  pre : BitVec 30
  prod : BitVec 52
deriving DecidableEq, Repr
def BearRegs.stage (c : BearCfg) (i : BearIn) (r : BearRegs) : BearStage :=
  let by_ (k : Nat) : Bool := c.bypass.getLsbD k
  let s := if by_ 0 then (if c.southS then i.sin else i.s) else r.s
  let t := if by_ 1 then i.t else r.t
  let g := if by_ 2 then i.g else r.g
  let mode := if by_ 7 then i.mode else r.mode
  let pre := (bearMode mode).pre.apply s t
  { s := s, t := t, g := g, e := if by_ 3 then i.e else r.e, mode := mode, pre := pre
    prod := (if by_ 4 then pre else r.pre).signExtend 52 * g.signExtend 52 }

/-- X0, X1, Y0 and Y1 of half-precision mode (R127). -/
def BearStage.operands (v : BearStage) : BitVec 64 :=
  v.e.extractLsb' 0 16 ++ v.g.extractLsb' 0 16 ++ v.t.extractLsb' 0 16 ++ v.s.extractLsb' 0 16

/-- The operands after k of the three stages between the input registers and ACC; PRE's and PROD's registers are the first
two of them (R127: 5 cycles in all). -/
def BearRegs.halfAt (c : BearCfg) (v : BearStage) (r : BearRegs) (k : Nat) : BitVec 64 :=
  match k with
  | 0 => v.operands
  | 1 => if c.bypass.getLsbD 4 then v.operands else r.half.getD 0 0
  | 2 => if c.bypass.getLsbD 5 then (if c.bypass.getLsbD 4 then v.operands else r.half.getD 0 0) else r.half.getD 1 0
  | _ => r.half.getD 2 0

/-- The sum that goes to ACC, and whether it sets OVF (R123, R125, R127). -/
def BearRegs.sum (c : BearCfg) (i : BearIn) (r : BearRegs) : BitVec 72 × Bool :=
  let v := r.stage c i
  let m := bearMode v.mode
  match c.half with
  | none =>
    let src := m.src.value c.shift30 r.acc v.e i.cin
    let p := if c.bypass.getLsbD 5 then v.prod else r.prod
    bearNarrow c.sat (if m.minus then src.toInt - p.toInt else src.toInt + p.toInt)
  | some h =>
    let o := r.halfAt c v 3
    let src := m.src.half v.mode r.acc i.cin
    let x (k : Nat) : BitVec 16 := o.extractLsb' (16 * k) 16
    if h.dot then bearDot h.bf16 r.acc src (x 0) (x 1) (x 2) (x 3) else bearDual h.bf16 r.acc src (x 0) (x 1) (x 2) (x 3)

/-- One edge of a Bear's clock. Under the global fabric reset every register holds INIT, OVF among them; OVF is set only when
ACC takes the sum (both DESIGN CHOICE: R124 and R125 name neither case, notes/assumptions/133.md). -/
def BearRegs.clock (c : BearCfg) (i : BearIn) (r : BearRegs) : BearRegs :=
  if i.globalReset then c.init
  else if i.blocked then r
  else if i.reset then {}
  else
    let v := r.stage c i
    let x := r.sum c i
    let ld {α : Type} (k : Nat) (new old : α) : α := if i.ce.getLsbD k then new else old
    { s := ld 0 (if c.southS then i.sin else i.s) r.s, t := ld 1 i.t r.t, g := ld 2 i.g r.g, e := ld 3 i.e r.e
      pre := ld 4 v.pre r.pre, prod := ld 5 v.prod r.prod, acc := ld 6 x.1 r.acc, mode := ld 7 i.mode r.mode
      ovf := r.ovf || ((i.ce.getLsbD 6 || c.bypass.getLsbD 6) && x.2)
      half := if c.half.isSome then
          [ld 4 (r.halfAt c v 0) (r.half.getD 0 0), ld 5 (r.halfAt c v 1) (r.half.getD 1 0), r.halfAt c v 2]
        else r.half }

/-- What a Bear puts out and passes north as COUT: ACC, or the sum where ACC is bypassed (R124, R126). SOUT is the S register
(R126). -/
def BearRegs.cout (c : BearCfg) (i : BearIn) (r : BearRegs) : BitVec 72 := if c.bypass.getLsbD 6 then (r.sum c i).1 else r.acc
def BearRegs.sout (r : BearRegs) : BitVec 30 := r.s

/-- Cycles from S, T or G to ACC with every register enabled (R124, R127). -/
def bearLatency (half : Bool) : Nat := if half then 5 else 4

/-! ## I/O cells (R129, Table 4.7) -/

/-- A standard's banks (HP, HD), the VCCO codes of `IOC_BANK_VCCO_b` it may use, its directions, and its highest rate per pin in
an HP and in an HD bank, in Mbit/s. LVDS into an HP bank takes any VCCO. -/
structure StdRow where
  hp : Bool
  hd : Bool
  vcco : List Nat
  input : Bool := true
  output : Bool := true
  hpMbps : Nat := 0
  hdMbps : Nat := 0
deriving DecidableEq, Repr
def IoStd.row : IoStd → StdRow
  | .lvcmos12 => { hp := true, hd := true, vcco := [2], hpMbps := 400, hdMbps := 250 }
  | .lvcmos15 => { hp := true, hd := true, vcco := [4], hpMbps := 400, hdMbps := 250 }
  | .lvcmos18 => { hp := true, hd := true, vcco := [5], hpMbps := 400, hdMbps := 250 }
  | .lvcmos25 => { hp := false, hd := true, vcco := [6], hdMbps := 250 }
  | .lvcmos33 => { hp := false, hd := true, vcco := [7], hdMbps := 250 }
  | .lvttl => { hp := false, hd := true, vcco := [7], hdMbps := 250 }
  | .hstl15 => { hp := true, hd := false, vcco := [4], hpMbps := 1000 }
  | .hstl18 => { hp := true, hd := false, vcco := [5], hpMbps := 1000 }
  | .sstl15 => { hp := true, hd := false, vcco := [4], hpMbps := 1600 }
  | .sstl135 => { hp := true, hd := false, vcco := [3], hpMbps := 1600 }
  | .sstl12 => { hp := true, hd := false, vcco := [2], hpMbps := 1600 }
  | .pod12 => { hp := true, hd := false, vcco := [2], hpMbps := 2000 }
  | .lvds => { hp := true, hd := false, vcco := [5], hpMbps := 2000 }
  | .slvs400 => { hp := true, hd := false, vcco := [2, 3, 4, 5], hpMbps := 2000 }
  | .lvdsExternal => { hp := false, hd := true, vcco := [6, 7], output := false, hdMbps := 250 }
  | .openDrain => { hp := false, hd := true, vcco := [1, 2, 3, 4, 5, 6, 7], input := false, hdMbps := 50 }

/-- A pin of bank b with a VCCO code may use a standard in a direction (R129). -/
def IoStd.fits (x : IoStd) (b code : Nat) (out : Bool) : Bool :=
  let r := x.row
  (if b < 12 then r.hp else r.hd) && (if out then r.output else r.input) && (r.vcco.contains code || (x == .lvds && !out))

/-- The delay of n of the 512 taps, in ps (R129). -/
def tapPs (n : BitVec 9) : Nat := 4 * n.toNat

/-- Values a pin takes in one period of its cell's clock: one, two with DDR, eight with the gearbox (R129). -/
def IoRegMode.slots : IoRegMode → Nat | .ddr => 2 | .gearbox => 8 | _ => 1

/-- One edge of an I/O cell's clock: `level k` is the pin in slot k of the period, `outs` what the design gives. -/
def IoRegs.clock (m : IoRegMode) (e : ClockEdge) (level : Fin 8 → Bool) (outs : List Bool) (r : IoRegs) : IoRegs :=
  match m with
  | .direct => r
  | .gearbox =>
    if e.rise then { r with gearIn := BitVec.ofNat 8 (ofBits ((List.finRange 8).map level)), gearOut := BitVec.ofNat 8 (ofBits outs) } else r
  | _ =>
    let r := if e.rise then { r with inRise := level 0, outRise := outs.getD 0 false, outFall := outs.getD 1 false } else r
    if e.fall && m == .ddr then { r with inFall := level 4 } else r

/-- What a cell puts on its pin in slot k of the period. -/
def IoRegs.out (m : IoRegMode) (outs : List Bool) (k : Nat) (r : IoRegs) : Bool :=
  match m with
  | .direct => outs.getD 0 false
  | .sdr => r.outRise
  | .ddr => if k = 0 then r.outRise else r.outFall
  | .gearbox => r.gearOut.getLsbD (if h : k < 8 then (Config.gearOrder ⟨k, h⟩).val else 0)

/-- What a cell gives the design as its bit k. -/
def IoRegs.inp (m : IoRegMode) (level : Fin 8 → Bool) (k : Nat) (r : IoRegs) : Bool :=
  match m with
  | .direct => level 0
  | .sdr => r.inRise
  | .ddr => if k = 0 then r.inRise else r.inFall
  | .gearbox => r.gearIn.getLsbD (if h : k < 8 then (Config.gearOrder ⟨k, h⟩).val else 0)

/-! ## A den's design -/

/-- A 72-bit word of CRAM as it stands: what was written, with its check bits, and the bits that have flipped since (R156). -/
def State.cramWord (s : State) (i : Nat) : BitVec 72 := eccWord 1 (s.bdg.cram.getD i 0) ^^^ s.bdg.flips.getD i 0

/-- The data words of a den's plane, by word of the plane: those written other than 0, and those with flipped bits (R156). -/
def State.planeWords (s : State) (d : Nat) (p : Bool) : List (Nat × BitVec 64) :=
  let lo := 64 * (6144 * d + 3072 * p.toNat)
  let mine (i : Nat) : Bool := decide (lo ≤ i) && decide (i < lo + 196608)
  ((s.bdg.cram.cells.map (·.1)) ++ (s.bdg.flips.cells.map (·.1)).filter fun i => s.bdg.cram.getD i 0 == 0).filterMap fun i =>
    if mine i then some (i - lo, (s.cramWord i).extractLsb' 0 64) else none

/-- The design in den d's active plane. -/
def State.design (s : State) (d : Nat) : DenDesign := Config.netlist (s.planeWords d (s.denAt d).active)

/-- An element of a list by its number. -/
def findAt {κ α : Type} [BEq κ] (l : List (κ × α)) (k : κ) : Option α := (l.find? fun x => x.1 == k).map fun x => x.2

def State.cellAt (s : State) (n : Nat) : CellCfg := (findAt (s.design (n / 81920)).cells (n % 81920)).getD {}
def State.bearAt (s : State) (n : Nat) : BearUse := (findAt (s.design (n / 256)).bears (n % 256)).getD {}
def State.settAt (s : State) (n : Nat) : SettUse := (findAt (s.design (n / 176)).setts (n % 176)).getD {}

/-- A flip-flop's choices, its value, and a Bear's registers: INIT where nothing has clocked them since the reset. -/
def State.ffCfg (s : State) (n : Nat) : Option FfCfg := ((s.cellAt (n / 2)).ffs.getD (n % 2) none)
def State.ffNow (s : State) (n : Nat) : Bool :=
  (s.fab.ff.getD n none).getD (match s.ffCfg n with | some c => c.init | none => false)
def State.bearNow (s : State) (n : Nat) : BearRegs := (s.fab.bear.getD n none).getD (s.bearAt n).cfg.init

/-- A Bear's inputs from the values of signals; CIN and SIN come from the Bear to the south in its column (R126). -/
def BearUse.inputs (u : BearUse) (v : Sig → Bool) (cin : BitVec 72) (sin : BitVec 30) (blocked : Bool) : BearIn :=
  let n (l : List Sig) : Nat := ofBits (l.map v)
  { s := BitVec.ofNat 30 (n u.s), t := BitVec.ofNat 29 (n u.t), g := BitVec.ofNat 22 (n u.g), e := BitVec.ofNat 72 (n u.e)
    cin := cin, sin := sin, mode := BitVec.ofNat 7 (n u.mode), ce := BitVec.ofNat 8 (n u.ces), reset := v u.reset
    globalReset := false, blocked := blocked }

/-- The Bear to the south in the same column. -/
def bearSouth (n : Nat) : Option Nat := if (bearSite n).row = 0 then none else some (n - 1)
def State.bearSin (s : State) (n : Nat) : BitVec 30 := match bearSouth n with | some m => (s.bearNow m).sout | none => 0

/-- A den's gate is closed: isolated, or frozen (R144). -/
def Den.closed (n : Den) : Bool := n.isolated || n.freeze.isSome

/-- Flits reserved in the 128-flit response buffer (R141). -/
def Den.reservedFlits (n : Den) : Nat := n.reserved.cells.foldl (fun a c => a + c.2) 0

/-- What den d's gate presents on a signal of Table 5.2 (R144, R148, R150, R377); a response or a request that is presented,
and its words, are the network's. -/
def State.gateIn (s : State) (d : Nat) (g : GateIn) : Bool :=
  let n := s.denAt d
  match g with
  | .oreqReady => !n.closed && !n.draining && decide (n.reservedFlits < 128)
  | .orspValid => Config.gateWord d 0 s.now
  | .ireqValid => !n.closed && Config.gateWord d 1 s.now
  | .edge => match n.edgeAt with | some t => decide (t ≤ s.now) | none => false
  | .swapWarn => n.draining
  | .plane => n.showPlane
  | .word k => Config.gateWord d (k + 2) s.now

/-- The level at a user pin, in slot k of its cell's clock period. -/
def pinAtSlot (i now : Nat) (k : Fin 8) : Bool := Config.pinLevel i (8 * now + k.val)

/-- The value of a signal; `fuel` bounds the elements it passes without a register, and a signal that no rule gives a value
(a loop, a route R107 forbids) is free. -/
def State.sig (s : State) : Nat → Sig → Bool
  | 0, σ => Config.strayValue σ
  | fuel + 1, σ =>
    let inp (d : Nat) (σ : Sig) : Bool :=
      if σ.reaches (fun e => (s.denAt e).isStatic) d then s.sig fuel σ else Config.strayValue σ
    match σ with
    | .const b => b
    | .ff n => s.ffNow n
    | .wire c o => s.fab.wire.getD (491520 * o + c) false
    | .yf n =>
      let c := s.cellAt n
      let i := c.ins.map (inp (n / 81920))
      lutYf c.lut (BitVec.ofNat 5 (ofBits (i.take 5))) (i.getD 5 false)
    | .yl n =>
      let c := s.cellAt n
      lutYl c.lut (BitVec.ofNat 5 (ofBits ((c.ins.take 5).map (inp (n / 81920)))))
    | .carry n high =>
      let c := s.cellAt n
      let cin := if high then s.sig fuel (.carry n false)
        else if n % 1280 = 0 then false else s.sig fuel (.carry (n - 1) true)
      Config.carryOut c.lut (c.ins.map (inp (n / 81920))) high cin
    | .acc n k =>
      let u := s.bearAt n
      let cin : Nat := match bearSouth n with
        | some m => ofBits ((List.range 72).map fun j => s.sig fuel (.acc m j))
        | none => 0
      ((s.bearNow n).cout u.cfg (u.inputs (inp (n / 256)) (BitVec.ofNat 72 cin) (s.bearSin n) false)).getLsbD k
    | .ovf n => (s.bearNow n).ovf
    | .sett i p k =>
      let u := s.settAt i
      let t := s.fab.port.getD (2 * i + p.toNat) {}
      let o := if u.casc.isSome then t.casc else t.shown u.mode (if p then u.b.port else u.a.port)
      if k < 72 then o.dout.getLsbD k else if k < 80 then o.perr.getLsbD (k - 72) else if k = 80 then o.sbe else o.dbe
    | .gate d g => s.gateIn d g
    | .iso d k =>
      match (s.denAt d).iso with
      | some l => l.getD k false
      | none => match (s.design d).isos[k]? with | some p => s.sig fuel p.1 | none => false
    | .pin n k => (s.fab.io.getD n {}).inp (s.ioc.pins.getD n {}).regs (pinAtSlot n s.now) k
    | .cross d n => match findAt (s.design d).crossings n with
      | some c => lastStage c.stages (s.fab.cross.getD (128 * d + n) [])
      | none => false
    | .held d n k => (s.fab.held.getD (16 * d + n) {}).taken.getLsbD k
    | .raw n k => (s.laneAt n).rawOut.getLsbD k

/-- More elements than any path without a register passes: every LUT and carry bit of the fabric. -/
def sigDepth : Nat := 12000000

/-- The value of a signal as den d uses it. -/
def State.sigIn (s : State) (d : Nat) (σ : Sig) : Bool :=
  if σ.reaches (fun e => (s.denAt e).isStatic) d then s.sig sigDepth σ else Config.strayValue σ

/-- The gate latches its isolation values from the active plane as isolation begins (R144, R374); an isolation that is under
way keeps its own. -/
def State.latchIso (s : State) (d : Nat) : State :=
  if (s.denAt d).iso.isSome then s
  else
    let l := (s.design d).isos.map fun p => match p.2 with | .zero => false | .one => true | .hold => s.sigIn d p.1
    s.modDen d fun n => { n with iso := some l }

/-- Flip-flops and Bears take INIT, and wire registers 0: over the fabric under the global fabric reset, or in one den when
its new plane becomes active (R109, R113, R124, R150). -/
def Tab.keep {α : Type} (p : Nat → Bool) (t : Tab α) : Tab α := { cells := t.cells.filter fun c => p c.1 }
def Fab.toInit (f : Fab) : Fab := { f with ff := {}, wire := {}, bear := {} }
def Fab.denInit (d : Nat) (f : Fab) : Fab :=
  { f with
    ff := f.ff.keep fun i => i / 163840 != d
    wire := f.wire.keep fun i => i % 491520 / 10240 != d
    bear := f.bear.keep fun i => i / 256 != d }

/-! ## Clock edges -/

/-- The edges of a source in this ns: a fabric PLL's while it is locked, REFCLK's while it is good (R54, R114). -/
def State.srcEdge (s : State) (x : NetSource) : ClockEdge :=
  match x with
  | .fabricPll n _ => if s.clk.good.getLsbD (40 + n.val) then Config.clockEdge x s.now else {}
  | .refclk => if s.clk.good.getLsbD 0 then Config.clockEdge x s.now else {}
  | _ => Config.clockEdge x s.now

/-- The edges that a global net carries, after its gate. -/
def State.globalEdge (s : State) (g : Nat) : ClockEdge :=
  match s.fab.clocking.nets[g]? with
  | some c => if gateOpen (s.fab.gates.getD g 3) then s.srcEdge c.src else {}
  | none => {}

/-- Where a regional net's gate lies in `Fab.gates`. -/
def gateIndex (d : Nat) (north : Bool) (k : Fin 16) : Nat :=
  32 + 16 * (8 * (d / 4) + 2 * (d % 4) + north.toNat) + k.val

/-- The edges before and after the gate of a regional net. -/
def State.netSrcEdge (s : State) (x : NetSource) : ClockEdge := match x with | .globalNet g => s.globalEdge g | x => s.srcEdge x
def State.netEdge (s : State) (d : Nat) (north : Bool) (k : Fin 16) : ClockEdge :=
  match findAt (s.design d).nets (north, k) with
  | some c => if gateOpen (s.fab.gates.getD (gateIndex d north k) 3) then s.netSrcEdge c.src else {}
  | none => {}

/-- A clock choice has its active edge in the region of a place. -/
def State.edgeAt (s : State) (p : Site) (c : ClkSel) : Bool := c.active (s.netEdge p.den p.north)

/-- The elements at a place are held: by the global fabric reset of its group, or by den reset (R89, R150). -/
def State.siteReset (s : State) (p : Site) : Bool := s.fabricReset p.group || (s.denAt p.den).inReset

/-- Write enables at a place are blocked: until stage 2, and in a freeze to its end (R89, R122, R150). -/
def State.siteBlocked (s : State) (p : Site) : Bool := s.fabricBlocked p.group || (s.denAt p.den).freeze.isSome

/-- One instant of a den's logic cells. -/
def State.clockCells (s : State) (d : Nat) (f : Fab) : Fab :=
  (s.design d).cells.foldl (fun f kc =>
    let n := 81920 * d + kc.1
    let p := clusterSite (n / 8)
    let ctl := (findAt (s.design d).ctls (kc.1 / 8)).getD {}
    let b : CtlBundle :=
      { edge := BitVec.ofNat 2 (ofBits (ctl.clks.map (s.edgeAt p))), enable := BitVec.ofNat 3 (ofBits (ctl.enables.map (s.sigIn d)))
        reset := BitVec.ofNat 2 (ofBits (ctl.resets.map (s.sigIn d))), globalReset := false, blocked := s.fabricBlocked p.group }
    (List.range 2).foldl (fun f j =>
      match kc.2.ffs.getD j none with
      | none => f
      | some c =>
        let v := c.next b (s.sigIn d (.yf n)) (s.sigIn d (.yl n)) (s.sigIn d (kc.2.dx.getD j (.const false))) (s.ffNow (2 * n + j))
        if s.siteReset p then f else { f with ff := f.ff.set none (2 * n + j) (some v) }) f) f

/-- One instant of a den's wire registers. -/
def State.clockWires (s : State) (d : Nat) (f : Fab) : Fab :=
  (s.design d).wires.foldl (fun f w =>
    let p := clusterSite (10240 * d + w.1.1)
    let i := 491520 * w.1.2 + 10240 * d + w.1.1
    { f with wire := f.wire.set false i (wireNext (s.siteReset p) (s.edgeAt p w.2.clk) (s.sigIn d w.2.src) (s.fab.wire.getD i false)) }) f

/-- One instant of a den's Bears. -/
def State.clockBears (s : State) (d : Nat) (f : Fab) : Fab :=
  (s.design d).bears.foldl (fun f ku =>
    let n := 256 * d + ku.1
    let p := bearSite n
    let u := ku.2
    let cin : Nat := match bearSouth n with | some m => ofBits ((List.range 72).map fun j => s.sig sigDepth (.acc m j)) | none => 0
    if s.siteReset p || !s.edgeAt p u.clk then f
    else { f with bear := f.bear.set none n (some ((s.bearNow n).clock u.cfg
      (u.inputs (s.sigIn d) (BitVec.ofNat 72 cin) (s.bearSin n) (s.siteBlocked p)))) }) f

/-- A Sett port's inputs where its clock has an edge. In a cascade the high address bits name the Sett by its place. -/
def State.settIn (s : State) (d : Nat) (p : Site) (u : SettPortUse) (casc : Option (Fin 8)) : Option SettIn :=
  if !s.edgeAt p u.clk then none
  else
    let n (l : List Sig) : Nat := ofBits (l.map (s.sigIn d))
    let i : SettIn :=
      { en := s.sigIn d u.en, we := BitVec.ofNat 8 (n u.we), addr := BitVec.ofNat 13 (n u.addr), din := BitVec.ofNat 72 (n u.din)
        oregCe := s.sigIn d u.oregCe, oregSr := s.sigIn d u.oregSr
        mine := match casc with | some k => n u.high == k.val | none => true }
    some (i.block (s.siteBlocked p))

/-- One instant of a den's Setts. -/
def State.clockSetts (s : State) (d : Nat) (f : Fab) : Fab :=
  (s.design d).setts.foldl (fun f ku =>
    let n := 176 * d + ku.1
    let p := settSite n
    let u := ku.2
    let south (b : Bool) : SettOut :=
      if p.row = 0 ∨ u.casc = some 0 then {} else (s.fab.port.getD (2 * (n - 1) + b.toNat) {}).casc
    settClock u (s.settIn d p u.a u.casc) (s.settIn d p u.b u.casc) south n f) f

/-- One instant of a den's crossing cells (R70, R71). -/
def State.clockCrossings (s : State) (d : Nat) (f : Fab) : Fab :=
  let D := s.design d
  let f := D.crossings.foldl (fun f c =>
    let p : Site := { den := d, column := 0, row := 0, north := decide (regionCrossings ≤ c.1) }
    if s.edgeAt p c.2.dest then { f with cross := f.cross.mod [] (128 * d + c.1) fun l => shiftIn c.2.stages (s.sigIn d c.2.src) l } else f) f
  D.holds.foldl (fun f c =>
    let p : Site := { den := d, column := 0, row := 0, north := decide (regionMultiCrossings ≤ c.1) }
    let next (h : HoldFlag) :=
      let h := if s.edgeAt p c.2.src then
        h.source c.2.stages (s.sigIn d c.2.send) (BitVec.ofNat 36 (ofBits (c.2.value.map (s.sigIn d)))) else h
      if s.edgeAt p c.2.dest then h.dest c.2.stages else h
    { f with held := f.held.mod {} (16 * d + c.1) next }) f

/-- One instant of a den's regional net gates (R114). -/
def State.clockNets (s : State) (d : Nat) (f : Fab) : Fab :=
  (s.design d).nets.foldl (fun f c =>
    if (s.netSrcEdge c.2.src).rise then
      { f with gates := f.gates.mod 3 (gateIndex d c.1.1 c.1.2) fun g => gateNext g (s.sigIn d c.2.enable) }
    else f) f

/-- The gate clock of den d has its active edge (R140). -/
def State.gateEdge (s : State) (d : Nat) : Bool :=
  let c := (s.design d).gateClk
  c.2.active (s.netEdge d c.1)

/-- One instant of the global nets' gates and of the I/O cells. -/
def State.clockStatic (s : State) (f : Fab) : Fab :=
  let f := (s.fab.clocking.nets.zipIdx).foldl (fun f c =>
    if (s.srcEdge c.1.src).rise then { f with gates := f.gates.mod 3 c.2 fun g => gateNext g (s.sig sigDepth c.1.enable) } else f) f
  (s.ioc.pins.zipIdx).foldl (fun f c =>
    if c.1.regs = .direct then f
    else
      let next (r : IoRegs) := r.clock c.1.regs (s.netSrcEdge c.1.clk) (pinAtSlot c.2 s.now) (c.1.outs.map (s.sig sigDepth))
      { f with io := f.io.mod {} c.2 next }) f

/-- One ns of the fabric's clocks, in which each net has at most one period (R115): every element of every den's design takes
the values that stood before. While FAB stands still nothing happens. -/
def State.fabricEdge (s : State) : State :=
  if (s.fabStill).isSome then s
  else
    let den (f : Fab) (d : Nat) : Fab :=
      s.clockCells d (s.clockWires d (s.clockBears d (s.clockSetts d (s.clockCrossings d (s.clockNets d f)))))
    let f := (List.range 48).foldl den (s.clockStatic s.fab)
    forN 48 (fun d t => if s.gateEdge d && s.gateIn d .edge then t.modDen d (fun n => { n with edgeAt := none }) else t) (s.modFab fun _ => f)

end Sys2Proof.Machine
end

