-- ==== Sys2Proof/Machine/Outputs.lean ====
section
/-! DEFINITION. What every user pin drives: safe states, output control and the trigger pins' sources (R129 to R135, R144,
Tables 4.7 to 4.9). -/

namespace Sys2Proof.Machine

/-! ## Pins -/

/-- The bank of user pin i: HP0 to HP11 with 52 pins each, then HD0 to HD3 with 40 (R129). -/
def pinBank (i : Nat) : Nat := if i < 624 then i / 52 else 12 + (i - 624) / 40

/-- Trigger pin n lies in bank HD(n / 4), pins 36 to 39 (R135). -/
def trigBank (n : Nat) : Nat := 12 + n / 4

/-- The index of trigger pin n among the 784 pins. -/
def trigIndex (n : Nat) : Nat := 624 + 40 * (n / 4) + 36 + n % 4

/-- The trigger pin at user pin i. -/
def pinTrig (i : Nat) : Option Nat :=
  if 624 ≤ i ∧ i < 784 ∧ 36 ≤ (i - 624) % 40 then some (4 * ((i - 624) / 40) + (i - 624) % 40 - 36) else none

/-- The image's settings of user pin i. -/
def State.pinCfg (s : State) (i : Nat) : PinCfg := s.ioc.pins.getD i {}

/-! ## Output control -/

/-- A level, or Hi-Z. -/
def Drive.ofLevel : Option Bool → Drive
  | none => .hiZ
  | some false => .low
  | some true => .high

/-- The row of Table 4.9 that decides an output. -/
inductive OutRow where
  | hiZ
  /-- No image accepted: HIZ. -/
  | noImage
  | safe
  /-- DEEP: the last value is held. -/
  | held
  | source
deriving DecidableEq, Repr

/-- The safe states are forced (Table 4.9, R57, R58, R98). -/
def State.safeForced (s : State) : Bool :=
  s.pwr.pinReset || s.pwr.resetPending ||
    match s.mode with
    | .load => s.pwr.restarted
    | .verify => s.pwr.restarted || s.pwr.checksOk
    | .release | .hold => !s.pwr.outputsOn
    | .stop => true
    | _ => false

/-- The source of an output lies in a den whose gate is closed, which ranks as a safe-state condition (R144). -/
def State.sourceClosed (s : State) (den : Option (Fin 48)) : Bool :=
  match den with | none => false | some d => (s.denAt d).closed

/-- The row of Table 4.9 that applies to an output of bank b whose source lies in a den, or not (R132, R144). -/
def State.outRow (s : State) (b : Nat) (den : Option (Fin 48)) : OutRow :=
  if !s.pwr.vcco.getLsbD b || s.ioc.mismatch.getLsbD b || s.mode == .off then .hiZ
  else if s.ioc.safe.isNone then .noImage
  else if s.safeForced || s.sourceClosed den then .safe
  else match s.mode with
    | .deep => .held
    | .run | .sleep | .release | .hold => .source
    | _ => .noImage

/-- What a safe-state code of Table 4.8 drives. On an open-drain output, DRIVE_HIGH and WEAK_HIGH act as HIZ; on the N leg of
a differential output, the drives are the other way round, and a weak pull is the same on both legs (R133). -/
def safeDrive (openDrain negative : Bool) (c : BitVec 3) : Drive :=
  match c.toNat with
  | 1 => .weakLow
  | 2 => if openDrain then .hiZ else .weakHigh
  | 3 => if negative then .high else .low
  | 4 => if openDrain then .hiZ else if negative then .low else .high
  | _ => .hiZ

/-- What a source gives an output: an open-drain one drives only low, and the N leg of a differential one the inverse
(R133). -/
def sourceDrive (openDrain negative : Bool) (v : Option Bool) : Drive :=
  match v with
  | none => .hiZ
  | some b => if openDrain && b then .hiZ else Drive.ofLevel (some (b != negative))

/-- The safe-state code of user pin i (R131). -/
def State.safeCode (s : State) (i : Nat) : BitVec 3 := (s.ioc.safe.getD []).getD i 0

/-- What the design drives on user pin i in slot k of its cell's clock period; none is Hi-Z (R129). -/
def State.pinSource (s : State) (i k : Nat) : Option Bool :=
  let c := s.pinCfg i
  if s.sig sigDepth c.enable then some ((s.fab.io.getD i {}).out c.regs (c.outs.map (s.sig sigDepth)) k) else none

/-- What the source of trigger pin n gives it: none where the output is off (R135, R392). -/
def State.trigSource (s : State) (n : Nat) : Option Bool :=
  let p := s.pinAt n
  match p.src.toNat with
  | 1 => s.pinSource (trigIndex n) 0
  | 2 => some (match p.pulse with | some (v, _) => v | none => p.level)
  | 3 => some (match p.ev with | some _ => p.evActive | none => !p.evActive)
  | _ => none

/-- The den that drives trigger pin n: only a FABRIC pin has one. -/
def State.trigDen (s : State) (n : Nat) : Option (Fin 48) := if (s.pinAt n).src = 1 then (s.pinCfg (trigIndex n)).den else none

/-- What trigger pin n drives (R132, R135). -/
def State.trigDrive (s : State) (n : Nat) : Drive :=
  let p := s.pinAt n
  match s.outRow (trigBank n) (s.trigDen n) with
    | .hiZ | .noImage => .hiZ
    | .safe => safeDrive p.od false (s.safeCode (trigIndex n))
    | .held => p.held.getD (sourceDrive p.od false (s.trigSource n))
    | .source => sourceDrive p.od false (s.trigSource n)

/-- What user pin i drives in slot k of its cell's clock period (R132, R133): a trigger pin by its own rule, any other by the
design. In DEEP the design's value stands, since FAB does. A differential pair has one safe state, the P leg's. -/
def State.pinDrive (s : State) (i k : Nat) : Drive :=
  match pinTrig i with
  | some n => s.trigDrive n
  | none =>
    let c := s.pinCfg i
    if !c.output then .hiZ
    else match s.outRow (pinBank i) c.den with
      | .hiZ | .noImage => .hiZ
      | .safe => safeDrive c.openDrain c.pOf.isSome (s.safeCode (c.pOf.getD i))
      | .held | .source => sourceDrive c.openDrain c.pOf.isSome (s.pinSource (c.pOf.getD i) k)

end Sys2Proof.Machine
end

