-- ==== Sys2Proof/Machine/Topology.lean ====
section
/-! DEFINITION. The layout of the Vexha network (chapter 7): the units it joins, the trail's 64 routers and its paths, the
loop's stations and ports, the slot tables, and how a packet enters the network. -/

namespace Sys2Proof.Machine

/-! ## Units and routers (R183, Table 7.2)

Nodes of the trail are numbered: 0 to 47 the den routers, 48 to 63 the spine routers from south to north, 64 to 111 the den
gates, 112 to 135 the quads, 136 to 151 the units of the spine routers, 152 to 159 the span ports of links 0 to 7, which
lie at their quads (R246, R255). -/

def gateNode (d : Nat) : Nat := 64 + d
def quadNode (q : Nat) : Nat := 112 + q
def spanNode (k : Nat) : Nat := 152 + k
def hstNode : Nat := 136
def csrNode : Nat := 137
def cfgNode : Nat := 144
def mgtNode : Nat := 151
/-- MEM channels 0 to 3. -/
def memNode (c : Nat) : Nat := [138, 139, 149, 150].getD c 150
/-- Burrow groups 0 to 3. -/
def burrowNode (g : Nat) : Nat := [140, 142, 146, 148].getD g 148

/-- The router a unit is attached to. -/
def attach (u : Nat) : Nat :=
  if u < 64 then u
  else if u < 112 then u - 64
  else if u < 136 then (if u - 112 < 12 then (u - 112) / 3 else 44 + (u - 124) / 3)
  else if u < 152 then u - 88
  else if u - 152 < 4 then u - 152 else u - 112

/-- Junction J(r) on the spine. -/
def junction (r : Nat) : Nat := 53 + 2 * r

/-- The place of a den router on its row's branch: columns 0 to 5, then the junction at 6, then columns 6 to 11. -/
def branchPos (d : Nat) : Nat := if d / 4 < 6 then d / 4 else d / 4 + 1

/-- The router at a place of row r's branch. -/
def branchNode (r i : Nat) : Nat := if i = 6 then junction r else 4 * (if i < 6 then i else i - 1) + r

/-- One place nearer to y. -/
def toward (x y : Nat) : Nat := if x < y then x + 1 else x - 1

/-- The next router on the one path from router a to another router b. -/
def hopTo (a b : Nat) : Nat :=
  if a < 48 then branchNode (a % 4) (toward (branchPos a) (if b < 48 ∧ b % 4 = a % 4 then branchPos b else 6))
  else if b < 48 then
    (if a = junction (b % 4) then branchNode (b % 4) (toward 6 (branchPos b)) else toward a (junction (b % 4)))
  else toward a b

/-- The node that follows a on the way to unit u. -/
def nextHop (a u : Nat) : Nat := if 64 ≤ a then attach a else if a = attach u then u else hopTo a (attach u)

/-- The nodes from a to unit u; `fuel` bounds their number. -/
def pathFrom : Nat → Nat → Nat → List Nat
  | 0, _, _ => []
  | f + 1, a, u => if a = u then [u] else a :: pathFrom f (nextHop a u) u

/-- The path of a packet from unit x to unit y: at most 19 routers. -/
def trailPath (x y : Nat) : List Nat := x :: pathFrom 32 (attach x) y

/-- The inputs of a router, which are its outputs too. -/
def neighbours (a : Nat) : List Nat :=
  if a < 48 then
    let i := branchPos a
    (if 0 < i then [branchNode (a % 4) (i - 1)] else []) ++ (if i < 12 then [branchNode (a % 4) (i + 1)] else []) ++
      gateNode a ::
        (if a < 4 then (List.range 3).map (fun k => quadNode (3 * a + k)) ++ [spanNode a]
          else if 44 ≤ a then (List.range 3).map (fun k => quadNode (12 + 3 * (a - 44) + k)) ++ [spanNode (a - 40)] else [])
  else
    (if 48 < a then [a - 1] else []) ++ (if a < 63 then [a + 1] else []) ++
      (if [53, 55, 57, 59].contains a then let r := (a - 53) / 2; [branchNode r 5, branchNode r 7] else [a + 88])

/-- The clock domain of a unit; a bridge lies where its link crosses into it (R197). -/
def unitDomain (u : Nat) : Domain :=
  if u < 64 then .noc
  else if u < 112 then .fab
  else if u < 136 ∨ 152 ≤ u then .lnk
  else if u = hstNode then .hst
  else if u = cfgNode then .cfg
  else if u = mgtNode then .mgt
  else if u = memNode 0 ∨ u = memNode 1 ∨ u = memNode 2 ∨ u = memNode 3 then .mem
  else .noc

/-- A bridge lies on the link between two nodes. -/
def bridged (a b : Nat) : Bool := unitDomain a != .noc || unitDomain b != .noc

/-! ## Stations of the loop (R181, Table 7.1) -/

/-- The unit at a station's den gate port, or at its hard-block port. -/
def stationUnit (st : Nat) (hard : Bool) : Option Nat :=
  if hard then
    if st < 4 then some (spanNode st)
    else if 44 ≤ st ∧ st < 48 then some (spanNode (st - 40))
    else match st with
      | 8 => some (memNode 0) | 12 => some (burrowNode 0) | 16 => some (memNode 1) | 20 => some (burrowNode 1)
      | 21 => some hstNode | 22 => some csrNode | 23 => some mgtNode | 24 => some cfgNode
      | 26 => some (burrowNode 2) | 30 => some (memNode 2) | 34 => some (burrowNode 3) | 38 => some (memNode 3)
      | _ => none
  else if st < 48 then some (gateNode st) else none

/-- The station and port of a unit; the quads have none. -/
def unitPort (u : Nat) : Option (Nat × Bool) :=
  if 64 ≤ u ∧ u < 112 then some (u - 64, false)
  else ((List.range 48).find? fun st => stationUnit st true == some u).map (·, true)

/-- The station of link k (R255). -/
def spanStation (k : Nat) : Nat := if k < 4 then k else 40 + k

/-- Hops from one station to another in a direction. -/
def hops (ccw : Bool) (a b : Nat) : Nat := if ccw then (a + 48 - b % 48) % 48 else (b + 48 - a % 48) % 48

/-- The direction of control traffic: the shorter one, clockwise when they are equal (R182). -/
def controlCcw (a b : Nat) : Bool := decide (hops true a b < hops false a b)

/-- The station h hops on. -/
def stationAfter (ccw : Bool) (st h : Nat) : Nat := (if ccw then st + 48 - h % 48 else st + h) % 48

/-! ## Slot tables -/

/-- Stations with a hard-block port (Table 7.1). -/
def hardBlock (st : Nat) : Bool := (stationUnit st true).isSome

/-- FRAME_SLOTS and FRAME_COUNT of table t = 2k + e (Table 7.6). -/
def Vnx.frameSlots (v : Vnx) (t : Nat) : Nat := field (v.frame.getD t 0) 0 11
def Vnx.frameCount (v : Vnx) (t : Nat) : Nat := field (v.frame.getD t 0) 16 12 + 1

/-- Entry n of table t. -/
def Vnx.entry (v : Vnx) (t n : Nat) : Word := v.slot.getD (1024 * t + n) 0

/-- Hops of an entry. -/
def slotHops (e : Word) : Nat := hops (e.getLsbD 1) (field e 2 6) (field e 9 6)

/-- The links an entry occupies: direction, station left, slot (R193). -/
def slotLinks (slots n : Nat) (e : Word) : List (Bool × Nat × Nat) :=
  (List.range (slotHops e)).map fun h =>
    (e.getLsbD 1, stationAfter (e.getLsbD 1) (field e 2 6) h, (n + h) % slots)

/-- An entry names a hard-block port where there is none. -/
def slotBadPort (e : Word) : Bool :=
  (e.getLsbD 8 && !hardBlock (field e 2 6)) || (e.getLsbD 15 && !hardBlock (field e 9 6))

/-- Walk a table's entries in order: the first that fails, given the links taken so far. -/
def slotWalk (v : Vnx) (t slots : Nat) : List Nat → List (Bool × Nat × Nat) → Option Nat
  | [], _ => none
  | n :: r, taken =>
    let e := v.entry t n
    if e.getLsbD 0 then
      let l := slotLinks slots n e
      if slotBadPort e || l.any taken.contains then some n else slotWalk v t slots r (l ++ taken)
    else slotWalk v t slots r taken

/-- The check of VALIDATE (R193): none passes; a bad frame register is reported as entry 0 (notes/assumptions/42.md). -/
def Vnx.check (v : Vnx) (t : Nat) : Option Nat :=
  let n := v.frameSlots t
  if n < 48 ∨ 1024 < n then some 0 else slotWalk v t n (List.range n) []

/-- The table ring k runs (R190). -/
def Vnx.active (v : Vnx) (k : Nat) : Nat := 2 * k + (v.epoch.getLsbD k).toNat

/-- Table t is that of the active epoch, or of one still draining (R193). -/
def Vnx.tableLocked (v : Vnx) (t : Nat) : Bool := v.active (t / 2) == t || v.draining.getLsbD (t / 2)

/-- Table t has a VALID entry of a flow from a port. -/
def Vnx.flowIn (v : Vnx) (t st : Nat) (hb : Bool) (flow : Byte) : Bool :=
  (List.range (min 1024 (v.frameSlots t))).any fun n =>
    let e := v.entry t n
    e.getLsbD 0 && field e 2 6 == st && e.getLsbD 8 == hb && field e 16 8 == flow.toNat

/-- Some ring's active epoch has an entry of a flow from a port (R194). -/
def Vnx.flowActive (v : Vnx) (st : Nat) (hb : Bool) (flow : Byte) : Bool :=
  (List.range 4).any fun k => v.flowIn (v.active k) st hb flow

/-- Some entry of table t owns a link in a slot (R193). -/
def Vnx.owned (v : Vnx) (t : Nat) (l : Bool × Nat × Nat) : Bool :=
  (List.range (min 1024 (v.frameSlots t))).any fun n =>
    (v.entry t n).getLsbD 0 && (slotLinks (v.frameSlots t) n (v.entry t n)).contains l

/-! ## Where a packet goes -/

/-- The populated channels. -/
def State.populated (s : State) : List Nat := (List.range 4).filter fun c => s.chGiB c != 0

/-- The channel that holds an offset under LINEAR, and the offset in it. -/
def linearLoc (cap : Nat → Nat) : List Nat → Nat → Nat × Nat
  | [], o => (0, o)
  | c :: r, o => if o < cap c * 2 ^ 30 then (c, o) else linearLoc cap r (o - cap c * 2 ^ 30)

/-- Channel and channel offset of a DDR offset (R227). -/
def State.ddrLoc (s : State) (o : Nat) : Nat × Nat :=
  let l := s.populated
  if s.mem.interleave then (l.getD (o / 4096 % l.length) 0, o / (4096 * l.length) * 4096 + o % 4096)
  else linearLoc s.chGiB l o

/-- A request to a CSR is control traffic, on the loop channel (R184). -/
def isControl (h : Hdr) : Bool := h.addr.toNat < 0x1200000 && !h.isPush

/-- The unit of a master: the pairs, the host port, the loader, the MAC engines' quad, and the dens. A header does not say
which MAC a request of master 7 comes from; the model lets it enter at Q00 (DESIGN CHOICE, notes/assumptions/43.md). -/
def masterNode (m : MasterId) : Nat :=
  match m.toNat with
  | 3 => hstNode
  | 5 => cfgNode
  | 7 => quadNode 0
  | n => if 16 ≤ n then gateNode (n - 16) else mgtNode

/-- The unit a request to this device is for; none where no range holds its address (R186, R237). A queue is hosted at the
MEM port of channel q div 16, a Burrow request enters at the group of its first byte (R205). -/
def State.unitOf (s : State) (h : Hdr) : Option Nat :=
  if h.isPush then (if field h.addr 45 3 = 0 then some (memNode (field h.addr 38 6 / 16)) else none)
  else (s.place h.addr).map fun p => match p with
    | .csr => csrNode
    | .burrow o => burrowNode (o / 2048 % 4)
    | .tcm _ _ => mgtNode
    | .den d _ => gateNode d
    | .ddr o => memNode (s.ddrLoc o).1
    | .dq q _ => memNode (q / 16)
    | .macq o => quadNode (o / 0x200000)
    | .host => hstNode

/-- The link that `SPN_ROUTE_n` names for a device (R273). -/
def State.routeOf (s : State) (dev : Byte) : Option (Fin 8) :=
  let r := (s.spn.route.getD dev.toNat 15).toNat
  if h : r < 8 then some ⟨r, h⟩ else none

/-- NOC cycles up to now: those the network has run, and those that have passed since. -/
def State.cycNow (s : State) : Nat := s.vnx.cyc + (if s.running .noc then s.nocCycles (s.now - s.vnx.ranTo) else 0)

/-- A packet enters the network from unit `src`: to a unit of this device, or to the span port its route names (R273, R277).
Where no route leads on, the port that would send it has it at once. -/
def State.enterNet (s : State) (p : Packet) (via : Option (Fin 8)) (src own : Nat) (control rsp : Bool) : State :=
  let far := p.hdr.dstDev != s.tbs.devNum
  let link := if far then s.routeOf p.hdr.dstDev else none
  let dst := if far then (link.map fun k => spanNode k.val).getD src else own
  let chan := if control && (unitPort src).isSome && (unitPort dst).isSome then .control (p.hdr.src.toNat % 4) else .trail rsp
  let q : InFlight :=
    { pkt := p, via := via, id := s.vnx.nextId, chan := chan, src := src, dst := dst, link := link, since := s.cycNow
      arrived := if far && link.isNone then some s.cycNow else none }
  s.modVnx fun v => { v with net := v.net ++ [q], nextId := v.nextId + 1 }

/-- A request enters, from its master or over a span link. One whose address no range holds stays at the unit where it
entered. -/
def State.sendRequest (s : State) (p : Packet) (via : Option (Fin 8)) : State :=
  let src := match via with | some k => spanNode k.val | none => masterNode p.hdr.src
  s.enterNet p via src ((s.unitOf p.hdr).getD src) (isControl p.hdr) false

/-- The unit that answers a request: its target, or the span port it went to. -/
def State.answerNode (s : State) (h : Hdr) : Nat :=
  if h.dstDev = s.tbs.devNum then (s.unitOf h).getD (masterNode h.src)
  else match s.routeOf h.dstDev with | some k => spanNode k.val | none => masterNode h.src

/-- The response to a request with header h goes to the master on this device, or to a span port (R184, R185, R273); one
that came over a link enters at its port. -/
def State.sendRsp (s : State) (h : Hdr) (p : Packet) (via : Option (Fin 8)) : State :=
  s.enterNet p via (match via with | some k => spanNode k.val | none => s.answerNode h) (masterNode p.hdr.src) (isControl h) true

/-- Answer a request. -/
def State.respond (s : State) (p : Packet) (e : Err) (data : List Byte) : State := s.sendRsp p.hdr (p.rsp e data) none

end Sys2Proof.Machine
end

