-- ==== Sys2Proof/Machine/Modes.lean ====
section
/-! DEFINITION. The operations that carry the device from mode to mode (Table 3.2) and what each mode does to every
block: the step budget, wakes, SLEEP and DEEP, HOLD, STOP, SENSE, LOAD, RELEASE and RUN. -/

namespace Sys2Proof.Machine

/-- Apply f to every listed value of a table, keeping the canonical form. -/
def Tab.mapVals {α : Type} [DecidableEq α] (t : Tab α) (d : α) (f : α → α) : Tab α :=
  ⟨(t.cells.map fun c => (c.1, f c.2)).filter fun c => decide (c.2 ≠ d)⟩

/-- The parameters of the accepted image. -/
def State.img (s : State) : ImgParams := s.pwr.img.getD {}

/-- The mode changes and PREV keeps the one it left (Table 3.12). -/
def State.setMode (s : State) (m : Mode) : State := s.modPwr fun p => { p with prev := p.mode, mode := m }

/-- Record why the device leaves its mode (`PWR_LAST_CAUSE`, R79). -/
def State.setCause (s : State) (c : Cause) : State := s.modPwr fun p => { p with cause := c, causeFrom := p.mode }

/-- NOC is stopped: in DEEP, in SLEEP with NOC gated until a wake or a wake request of a crossing starts it (R63, R64, R72,
R95), and while its PLL has failed (R50). -/
def State.nocStopped (s : State) : Bool := !s.running .noc

/-- Time counts toward the scrub laps in ON, unless NOC is stopped (R219). -/
def State.lapCounts (s : State) (k : Bank) : Bool := k.state == .on && !s.nocStopped

/-- The scrub lap of each bank starts or stops counting time (R219). -/
def State.updLaps (s : State) : State :=
  forN 32 (fun b s => s.modBank b fun k =>
    match k.lapStop with
    | none => if s.lapCounts k then k else { k with lapStop := some s.now }
    | some t => if s.lapCounts k then { k with lapAt := k.lapAt + (s.now - t), lapStop := none } else k) s

/-- The Burrow bytes of a bank that is OFF or cleared are gone (R213, R214): they read as bytes nothing has written. -/
def State.wipeBank (s : State) (b : Nat) : State :=
  s.modRam fun m => m.filter fun c => !(decide (0x40000000 ≤ c.1) && decide (c.1 < 0x44000000) && c.1 / 256 % 32 == b)

/-! ## Brock pairs and the Badger across modes -/

/-- Reset vectors: Brock-A's ROM (R328), Brock-B's TCM (R329). -/
def resetVec (p : Nat) : Word := if p = 0 then 0 else 0x10000000

/-- Both cores of a pair are reset: the core's own state starts anew; its registers on the core-local map, the debug
registers and the record of restarts stay (notes/assumptions/33.md). A request that is outstanding keeps its tag, and
its response is sunk (R333). -/
def Pair.resetCore (p : Pair) (vec : Word) : Pair :=
  { p with
    pc := vec, regs := {}, mie := false, mpie := false, mieReg := 0, mtvec := 0, mepc := 0, mcause := 0, mtval := 0
    mscratch := 0, mcycle := 0, minstret := 0, wfi := false, haltWait := none, feedBusy := false
    sinkTags := (match p.wait with | none => p.sinkTags | some w => setBit p.sinkTags w.tag.toNat true)
    wait := none, fedAnswer := none }

/-- Brock-B is held in reset (R329). -/
def State.holdB (s : State) : State :=
  s.modPair 1 fun p => { p.resetCore (resetVec 1) with inReset := true, stalled := false, halted := false, restarting := false }

/-- Brock-B stalls in DEEP and HOLD (R329). -/
def State.stallB (s : State) : State := s.modPair 1 fun p => if p.inReset then p else { p with stalled := true }

/-- Brock-B leaves reset, or resumes if it was stalled (R89), unless B_RUN holds it in reset. -/
def State.startB (s : State) : State :=
  s.modPair 1 fun p => { p with inReset := !s.brk.bRun, stalled := false }

/-- CFG runs from its PLL: not on AON fallback (R50, R165). -/
def State.cfgOnPll (s : State) : Bool := s.clk.good.getLsbD 6 && !s.mgtOnAon

/-- The conditions under which the Badger pauses (R165). -/
def State.badgerPause (s : State) : Bool :=
  !(s.gateEn .cfg || s.clk.woken.any fun w => w.1 == .cfg) || !s.cfgOnPll || s.bdg.pause

/-- The Badger's state and the lap watch's excluded time follow the device (R165, R179). -/
def State.updBadger (s : State) : State :=
  let pz := s.badgerPause
  let ex := pz || s.den.loadBusy || s.bdg.rlBusy
  s.modBdg fun b =>
    if b.state = .running ∨ b.state = .paused then
      { b with
        state := if pz then .paused else .running
        exclFrom := if ex then some (b.exclFrom.getD s.now) else none
        excluded := match b.exclFrom with
          | none => b.excluded
          | some t => if ex then b.excluded else b.excluded + (s.now - t) }
    else b

/-- The shadow of den d is READY. -/
def State.shadowReady (s : State) (d : Nat) : Bool := (s.denAt d).shadow == .ready

/-- Frames in a lap that starts now (R161). -/
def State.lapFrames (s : State) : Nat := 147456 + 3072 * ((List.range 48).filter s.shadowReady).length

/-- A lap starts at position 0 (R161, R163, R164). -/
def State.startLap (s : State) : State :=
  s.modBdg fun b =>
    { b with
      lapCur := b.lapTarget, position := 0, word := 0, lapAt := s.now, excluded := 0, exclFrom := none, nextDue := s.now
      interval := BitVec.ofNat 16 (max 64 (b.lapTarget.toNat * 500 / s.lapFrames)) }

/-- The Badger stops (R165). -/
def State.stopBadger (s : State) : State := s.modBdg fun b => { b with state := .stopped, unscrubbed := false }

/-! ## Span links across modes -/

/-- The lanes of link k's quad that its width uses (R255, Table 10.1). -/
def Link.lanes (l : Link) : List Nat := (List.range (2 ^ min 2 (field l.cfg 5 2))).map (4 * field l.cfg 0 5 + ·)
def Link.configured (l : Link) : Bool := l.cfg.getLsbD 8
def Link.isUp (l : Link) : Bool := l.state == .up

/-- A quad's mode: the image's, or SPAN while the link map alone names it (R247, R248). -/
def State.quadMode (s : State) (q : Nat) : Nat :=
  let m := field (s.lan.quad.getD q 0) 0 2
  if m = 0 ∧ (List.range 8).any fun k => (s.linkAt k).configured && field (s.linkAt k).cfg 0 5 == q then 2 else m

/-- A lane is used by its quad's mode; the others are powered down (R247, Table 10.1). -/
def State.laneUsed (s : State) (n : Nat) : Bool :=
  match s.quadMode (n / 4) with
  | 1 => (s.macAt (n / 4)).config != 0
  | 2 => (List.range 8).any fun k => (s.linkAt k).configured && (s.linkAt k).lanes.contains n
  | 3 => true
  | _ => false

/-- A lane is powered. -/
def State.laneOn (s : State) (n : Nat) : Bool := s.lan.powered.getLsbD (n / 4) && s.laneUsed n

/-- A training attempt starts on a lane (R251). -/
def State.trainLane (s : State) (n : Nat) : State :=
  s.modLane n fun l => { l with trained := false, training := some s.now, retryAt := none, attempts := satInc l.attempts }

/-- A configured link is to come up: it starts its bring-up, at once where its quad PLL is locked, and else when it locks
(R248, R256). -/
def State.startLink (s : State) (k : Nat) : State :=
  let l := s.linkAt k
  if l.configured && l.enable then
    let s := s.modLink k fun l => { l with want := true }
    if s.clk.good.getLsbD (16 + field l.cfg 0 5) then
      l.lanes.foldl State.trainLane (s.modLink k fun l => { l with state := .training, want := false })
    else s
  else s

/-- A device with a span link configured. -/
def State.hasSpan (s : State) : Bool := (List.range 8).any fun k => (s.linkAt k).configured

/-- Every configured link whose ENABLE is 1 is UP. -/
def State.linksUp (s : State) : Bool :=
  (List.range 8).all fun k => let l := s.linkAt k; !(l.configured && l.enable) || l.isUp

/-- The best link other than k that has delivered a marker within 2 tick periods (R267). -/
def State.bestUpstream (s : State) (k : Option Nat) : Option (Fin 8) :=
  ((List.range 8).foldl (fun (best : Option (Nat × Nat)) j =>
    let l := s.linkAt j
    match l.markerAt with
    | none => best
    | some t =>
      if l.isUp && some j != k && s.now ≤ t + 2 * s.tbs.period.toNat then
        match best with
        | none => some (j, l.markerHops.toNat)
        | some (_, h) => if l.markerHops.toNat < h then some (j, l.markerHops.toNat) else best
      else best) none).map fun x => Fin.ofNat 8 x.1

/-- The follower changes its upstream from link k (R267); with WATCH_SPAN_REF it does not. -/
def State.switchUpstream (s : State) (k : Nat) : State :=
  if s.clk.watchSpan then s
  else match s.bestUpstream (some k) with
    | none => s
    | some j =>
      (s.modSpn fun p => { p with upstream := some j, hops := (s.linkAt j).markerHops.toNat + 1 }).raise .spnUpstreamSwitch
        (BitVec.ofNat 32 (j.val + 16 * k))

/-- A link end goes down (R276, R278): causes 1 DISABLED, 2 LOCK_LOST, 3 REPLAY, 4 INFO, 5 LANE, 6 MODE, 7 PEER.
It drops what it holds, and every request tracked on it is answered REMOTE_UNREACHABLE. -/
def State.linkDown (s : State) (k : Nat) (cause : Nat) : State :=
  let l := s.linkAt k
  if l.state = .down then s
  else
    let gone := s.spn.tracked.filter fun t => t.link == k
    let s := s.modLink k fun l =>
      { l with
        state := .down, cause := BitVec.ofNat 4 cause, cDown := satInc l.cDown, replay := [], ackSeq := 0, nextSeq := 0
        resend := 0, resends := 0, expect := 0, nak := false, gap := false, delayAt := none, txCtl := [], txTiming := [], txReq := [], txRsp := []
        txGuar := [], rxReq := [], rxRsp := [], rxGuar := [], rxCtl := [], rxTiming := [], credits := {}, retReq := 0, retRsp := 0
        infoSent := false, infoOk := false, want := false, cwNext := 0
        retGuar := 0, seenReq := 0, seenRsp := 0, seenGuar := 0, delay := 0, measured := 0, sum := 0, discards := 0
        reqAt := none, markerAt := none, foreign := false }
    let s := s.modSpn fun p => { p with tracked := p.tracked.filter fun t => t.link != k }
    let s := gone.foldl (fun s t => s.respond t.pkt .remoteUnreachable []) s
    let s := s.raise .spnLinkDown (BitVec.ofNat 32 (k + 16 * cause))
    let s := if s.spn.upstream.map (·.val) = some k then s.switchUpstream k else s
    if cause != 1 && cause != 6 && l.autoRetrain then s.startLink k else s

/-- Every link goes down with cause MODE (R278). -/
def State.linksDown (s : State) : State := forN 8 (fun k s => s.linkDown k 6) s

/-! ## The step budget (R100, R101) -/

/-- VCC_CORE for an OP, in mV: the table voltage less the trim, at least 700 (R65). -/
def State.opVolt (s : State) (op : Nat) : Nat := max 700 (700 + 50 * op - 5 * s.trim)

/-- NOC cycles with a wait held, as counted up to now, and whether the 48-bit count has wrapped (R244). -/
def State.waitCycles (s : State) (q : Nat) : Nat :=
  let d := s.dqAt q
  d.waitcyc.toNat + match d.waitFrom with | none => 0 | some t => if s.nocStopped then 0 else s.nocCycles (s.now - t)

/-- The wait counter of queue q is brought up to now; counting goes on if `held` (R244). -/
def State.syncWait (s : State) (q : Nat) (held : Bool) : State :=
  let n := s.waitCycles q
  s.modDq q fun d =>
    { d with waitcyc := BitVec.ofNat 48 n, err := if 2 ^ 48 ≤ n then setBit d.err 2 true else d.err
             waitFrom := if held then some s.now else none }

/-- The NOC frequency is about to change: the wait counters are brought up to now. -/
def State.syncWaits (s : State) : State := forN 64 (fun q s => if (s.dqAt q).waitFrom.isSome then s.syncWait q true else s) s

/-- The NOC domain switches from the running PLL to the standby (R68, Table 2.7). -/
def State.nocSwitch (s : State) : State :=
  s.modClk fun c =>
    match c.phase with
    | .raiseSwitch =>
      { c with op := c.target, standbyB := !c.standbyB, standbyLocked := false, phase := .idle
               good := setBit c.good (if c.standbyB then 4 else 5) false }
    | .lowerSwitch =>
      { c with op := c.target, standbyB := !c.standbyB, standbyLocked := false, phase := .lowerWrite, avs := .write
               volt := BitVec.ofNat 16 (s.opVolt c.target.toNat), avsAt := s.now
               good := setBit c.good (if c.standbyB then 4 else 5) false }
    | _ => c

/-! ## The edges to come -/

/-- The local time of the next edge: the TMB cycle in which system time reaches the edge value (R17). -/
def State.nextEdgeLocal (s : State) : Nat := s.now + s.cyclesTo (256 * s.tbs.nextEdge.toNat)

/-- The hold in force at the edge that local time t brings, once the requests that reach it by R11 are applied
(R11, R43): (indefinite, edges to skip). -/
def State.holdAt (s : State) (t : Nat) : Bool × Nat :=
  (s.tbs.holdQ.filter fun q => q.time + 40 ≤ t).foldl (fun _ q => (q.indef, if q.indef then 0 else q.count.toNat))
    (s.tbs.indef, s.tbs.holdLeft.toNat)

/-- A notice names the next edge as the first of a hold (R270). -/
def State.noticeHold (s : State) : Option (Bool × Nat) :=
  (s.tbs.sched.filterMap fun x => match x with
    | .hold e c i => if e = s.tbs.nextEdge then some (i, if i then 0 else c.toNat) else none
    | _ => none).getLast?

/-- The period from the edge that begins tick n: a change announced for it, or the one in use (R18, R270). -/
def Tbs.periodAt (t : Tbs) (n : BitVec 48) : BitVec 24 :=
  (t.sched.filterMap fun x => match x with | .period m p => if m = n then some p else none | _ => none).getLast?.getD t.period

/-- The next edge as it stands now (R43, R270). -/
def State.nextRec (s : State) : EdgeRec :=
  let h := (s.noticeHold).getD (s.holdAt s.nextEdgeLocal)
  let skip := h.1 || h.2 != 0
  { time := s.tbs.nextEdge, tick := if skip then s.tbs.tick else s.tbs.tick + 1, skipped := skip
    holdLeft := BitVec.ofNat 16 (if h.1 then 0 else h.2 - 1)
    period := if skip then s.tbs.period else s.tbs.periodAt (s.tbs.tick + 1) }

/-- The next edge is skipped. -/
def State.nextSkipped (s : State) : Bool :=
  let h := (s.noticeHold).getD (s.holdAt s.nextEdgeLocal)
  h.1 || h.2 != 0

/-- The system time at which tick n begins, if no further hold or period change intervenes. -/
def State.edgeOf (s : State) (n : Nat) : Nat :=
  let h := (s.noticeHold).getD (s.holdAt s.nextEdgeLocal)
  s.tbs.nextEdge.toNat + (n - (s.tbs.tick.toNat + 1) + h.2) * s.tbs.period.toNat

/-- Time and tick number of the first edge at or after ns t that is not skipped; none under an indefinite hold. -/
def State.edgeFrom (s : State) (t : Nat) : Option (Nat × Nat) :=
  let h := (s.noticeHold).getD (s.holdAt s.nextEdgeLocal)
  let e := s.tbs.nextEdge.toNat
  let j := max h.2 ((t - e + s.tbs.period.toNat - 1) / s.tbs.period.toNat)
  if h.1 then none else some (e + j * s.tbs.period.toNat, s.tbs.tick.toNat + 1 + (j - h.2))

/-! ## Span messages -/

/-- Put a control message in a link's queue. -/
def State.sendCtl (s : State) (k : Nat) (m : SpanMsg) : State := s.modLink k fun l => { l with txCtl := l.txCtl ++ [m] }

/-- Send a message of the family `cap` (R257) on every UP link but one. -/
def State.flood (s : State) (m : SpanMsg) (cap : Nat) (but : Option Nat) : State :=
  forN 8 (fun k s =>
    let l := s.linkAt k
    if l.isUp && l.farCaps.getLsbD cap && but != some k then s.sendCtl k m else s) s

/-- The list of what is known already, with one more at its end and at most n in all (DESIGN CHOICE,
notes/assumptions/143.md). -/
def remember {α : Type} (n : Nat) (l : List α) (x : α) : List α := (l ++ [x]).drop (l.length + 1 - n)

/-- Send a NOTICE of this device (R270). -/
def State.sendNotice (s : State) (kind : NoticeKind) : State :=
  let id := s.spn.noticeId
  (s.flood (.notice s.tbs.devNum id kind) 0 none).modSpn fun p =>
    { p with noticeId := id + 1, seenNotices := remember 1024 p.seenNotices (s.tbs.devNum, id) }

/-- The PERIOD action at index i that waited is rescheduled: it runs at the first edge, not skipped, at or after system
time t, and its tick number is announced (R38, R270). -/
def State.reschedule (t : Nat) (i : Nat) (s : State) : State :=
  let e := s.actAt i
  if e.state = .waiting ∧ e.cls = 5 then
    let s := s.modAct i fun e => { e with state := .armed, wasLate := true, due := .edgeAfter (BitVec.ofNat 72 (256 * t)) }
    match s.edgeFrom t with
    | some (_, n) => s.sendNotice (.period (BitVec.ofNat 48 n) (BitVec.ofNat 24 e.arg.toNat))
    | none => s
  else s

/-- Once every link is UP again, the PERIOD actions that waited run NOTICE_LEAD later (R38). -/
def State.reschedulePeriods (s : State) : State :=
  if s.mode = .run ∧ s.linksUp then forN 256 (State.reschedule (s.sysNs + s.spn.lead.toNat)) s else s

/-- Every entry in use becomes free, and no outcome is recorded for it (R38); what a free index shows stays (R41). -/
def State.freeTable (s : State) : State :=
  s.modTbs fun t =>
    { t with table := t.table.mapVals {} fun e => if e.state = .free then e else { e with state := .free, outcome := 0 } }

/-! ## Drain windows (R148) -/

/-- A request as the gate presents it: its address is the offset in the den window (R140). -/
def InReq.of (p : Packet) (now : Nat) : InReq :=
  { pkt := p, off := BitVec.ofNat 32 (p.hdr.addr.toNat - 0x1000000000), time := now }

/-- Held requests are presented to the den, as far as it may take them (R141, R148, R150). -/
def State.presentHeld (s : State) (d : Nat) : State :=
  let n := s.denAt d
  let k := 32 - n.inbound.length
  s.modDen d fun n =>
    { n with inbound := n.inbound ++ (n.held.take k).map (fun p => InReq.of p s.now), held := n.held.drop k }

/-- The system time of the edge that begins tick n, from the current period and no hold (R148). -/
def State.plainEdge (s : State) (n : Nat) : Nat := s.tbs.lastEdge.toNat + (n - s.tbs.tick.toNat) * s.tbs.period.toNat

/-- The system time of the edge a due names, from the current period and no hold: the first at or after t for an action
that is stored late (R37, R148). -/
def State.plainDue (s : State) : Due → Nat
  | .tick n => s.plainEdge n.toNat
  | .time t | .edgeAfter t =>
    s.tbs.lastEdge.toNat +
      (((t.toNat + 255) / 256 - s.tbs.lastEdge.toNat + s.tbs.period.toNat - 1) / s.tbs.period.toNat) * s.tbs.period.toNat

/-- The entry is a DRAIN swap of den d that has still to run. -/
def ActEntry.drains (e : ActEntry) (d : Nat) : Bool :=
  e.state != .free && e.cls == 2 && e.target.toNat == d && !e.arg.getLsbD 0

/-- The first DRAIN swap of den d still to run: the system time S of its edge (R148). -/
def State.drainEdge (s : State) (d : Nat) : Option Nat :=
  (s.tbs.table.cells.filterMap fun c => if c.2.drains d then some (s.plainDue c.2.due) else none).min?

/-- The drain window of den d opens if its moment has come (R148). -/
def State.openDrain (s : State) (d : Nat) : State :=
  match s.drainEdge d with
  | none => s
  | some t =>
    if t ≤ s.sysNs + (s.denAt d).drainLimit.toNat then s.modDen d fun n => { n with draining := true } else s

/-- A window whose swap is gone closes (DEDUCED, notes/assumptions/44.md). -/
def State.closeDrain (s : State) (d : Nat) : State :=
  if (s.denAt d).draining && (s.drainEdge d).isNone then (s.modDen d fun n => { n with draining := false }).presentHeld d else s

/-! ## Returns to RUN -/

/-- An action runs at the first edge at or after this system time that is not skipped (R37). -/
def State.edge40 (s : State) : Stamp := s.time.sys + BitVec.ofNat 72 (40 * 256)

/-- On a return to RUN a waiting action is treated as past (R38), and so is an armed edge-class action whose tick
number an adopted numbering has passed (R47). PERIOD actions of a device with a span link stay waiting. -/
def State.wakeAction (i : Nat) (s : State) : State :=
  let e := s.actAt i
  let passed := e.state == .armed && (match e.due with | .tick n => decide (n.toNat ≤ s.tbs.tick.toNat) | _ => false)
  if e.state == .waiting || passed then
    if e.cls = 5 ∧ s.hasSpan then s.modAct i fun e => { e with state := .waiting }
    else
      let det := BitVec.ofNat 32 (i + 256 * e.cls.toNat + 2048)
      match e.late.toNat with
      | 0 =>
        let s := (s.modAct i fun e => { e with state := .free, outcome := 2 }).raise .tbsLateDrop det
        if e.cls = 2 then s.closeDrain e.target.toNat else s
      | n =>
        let due := if n = 2 ∧ e.cls.toNat < 2 then Due.time s.edge40 else Due.edgeAfter s.edge40
        let s := (s.modAct i fun e => { e with state := .armed, wasLate := true, due := due }).raise .tbsLateRun det
        if e.cls = 2 then s.openDrain e.target.toNat else s
  else s

/-- Pins hold what they drive, from entry to DEEP on (R99). -/
def State.holdPins (s : State) : State := forN 16 (fun n s => s.modPin n fun p => { p with held := some (s.trigDrive n) }) s

/-- Pins follow their sources again. -/
def State.freePins (s : State) : State := forN 16 (fun n s => s.modPin n fun p => { p with held := none }) s

/-- Enter RUN (R89, R95): waiting actions are handled under R38, and no domain is owed to a wake request any more. -/
def State.enterRun (s : State) : State :=
  let s := (s.syncWaits.freePins.setMode .run).modPwr fun p => { p with waking := none, rel := { p.rel with next := 0, stage := 0 } }
  let s := s.modClk fun c => { c with woken := [] }
  let s := s.modPair 1 fun p => { p with stalled := false }
  let s := s.modTbs fun t => { t with runAt := s.now }
  (forN 256 State.wakeAction s).reschedulePeriods.updLaps.updBadger

/-- A release stage completes (R89). -/
def State.stageDone (s : State) (k : Nat) : State :=
  let s := s.modPwr fun p =>
    { p with rel := { p.rel with complete := k, stage := 0, next := k + 1
                                 slipAfter := p.rel.slipAfter.map fun _ => s.now + 40 } }
  match k with
  | 1 => s.modPwr fun p => { p with outputsOn := true }
  | 2 => s.modPwr fun p => { p with blocked := false }
  | 3 => (s.startB.modTbs fun t => { t with checkOn := true }).enterRun
  | _ => s

/-- A granted step takes effect (Table 3.10). -/
def State.applyStep (s : State) : StepKind → State
  | .release k g =>
    let s := s.modClk fun c => if k = 1 then { c with fabRows := setBit c.fabRows g true } else c
    let s := s.modPwr fun p =>
      { p with
        rowsOpen := if k = 2 then setBit p.rowsOpen g true else p.rowsOpen
        rowsRun := if k = 3 then setBit p.rowsRun g true else p.rowsRun
        rel := { p.rel with groups := g + 1, groupAt := s.now } }
    if g = 7 then s.stageDone k else s
  | .fabWake g =>
    let s := s.modClk fun c => { c with fabRows := setBit c.fabRows g true }
    s.modPwr fun p => { p with rel := { p.rel with stage := if g = 7 then 0 else 4, groups := g + 1, groupAt := s.now } }
  | .opSwitch => s.syncWaits.nocSwitch
  | .bankClear b => s.modBank b fun k => { k with state := .clearing, queued := false, clearAt := s.now, clearCyc := s.cycNow }
  | .ddrWake c => s.modCh c fun k => { k with selfRefresh := false }
  | .quad q => s.modLan fun l => { l with powered := setBit l.powered q true }

/-- What a step costs, in mA (Table 3.10). -/
def State.stepCost (s : State) : StepKind → Nat
  | .release k g => (s.img.stepCost.getD (8 * (k - 1) + g) 0).toNat
  | .fabWake g => (s.img.stepCost.getD g 0).toNat
  | .opSwitch => s.img.nocStep.toNat
  | .bankClear _ => 250
  | .ddrWake _ => 400
  | .quad _ => 300

/-- The budget suffices for a cost: it holds it, or it is full and the cost exceeds the depth (R100). -/
def State.affords (s : State) (cost : Nat) : Bool :=
  cost ≤ s.pwr.tokens.toNat || (s.pwr.depth.toNat < cost && s.pwr.tokens == s.pwr.depth)

/-- Grant a step: its cost is subtracted, or a cost above the depth empties the budget and is reported (R100). -/
def State.grant (s : State) (k : StepKind) (cost : Nat) : State :=
  let clamp := s.pwr.depth.toNat < cost
  let s := s.modPwr fun p => { p with tokens := BitVec.ofNat 12 (p.tokens.toNat - cost) }
  (s.raiseIf clamp .pwrStepClamp (BitVec.ofNat 32 (bits cost 0 12))).applyStep k

/-- Request a step: granted at once when nothing waits and the budget suffices, else it waits its turn (R100). -/
def State.requestStep (s : State) (k : StepKind) : State :=
  let cost := s.stepCost k
  if s.pwr.steps.isEmpty && s.affords cost then s.grant k cost
  else s.modPwr fun p => { p with steps := p.steps ++ [(k, cost)], stepWaits := satInc p.stepWaits }

/-! ## Wakes, SLEEP and DEEP -/

/-- A bank that holds a waiting access moves to the front of the clears (R214). -/
def State.promote (s : State) (b : Nat) : State :=
  s.modBrw fun x => if x.clearQ.contains b then { x with clearQ := b :: x.clearQ.filter (· != b) } else x

/-- Place a bank among those that wait to clear: ascending, behind those that were moved to the front. -/
def State.insertClear (s : State) (b : Nat) : List Nat → List Nat
  | [] => [b]
  | x :: l => if (s.bankAt x).queue.isEmpty ∧ b < x then b :: x :: l else x :: s.insertClear b l

/-- A bank waits to be cleared. -/
def State.queueClear (s : State) (b : Nat) : State :=
  if (s.bankAt b).queued then s
  else
    let t := (s.modBank b fun k => { k with queued := true }).modBrw fun x => { x with clearQ := s.insertClear b x.clearQ }
    if (s.bankAt b).queue.isEmpty then t else t.promote b

/-- The lanes leave electrical idle (R93), and links come up again (R278), DDR leaves power-down and self-refresh, banks return to the
state `BRW_BANK_CTRL_b` asks for (R216), and the host hears of it (R317). -/
def State.leaveSleep (s : State) : State :=
  let s := forN 8 (fun k s => s.startLink k) ((s.modLan fun l => { l with idle := false }).modPwr fun p => { p with chilled := false })
  let s := forN 4 (fun c s =>
    let s := s.modCh c fun k => { k with powerDown := false }
    if (s.chAt c).selfRefresh then s.requestStep (.ddrWake c) else s) s
  let s := forN 32 (fun b s =>
    let k := s.bankAt b
    if k.state = .off ∧ k.ctrl = 0 then s.queueClear b
    else if k.state = .off ∧ k.ctrl = 1 then s.modBank b fun k => { k with state := .retain }
    else if k.state = .retain ∧ k.ctrl = 2 then (s.modBank b fun k => { k with state := .off }).wipeBank b
    else s) s
  (s.modPair 0 fun p => { p with wfi := false }).updLaps

/-- Sources whose PLL is in use and off in DEEP: the driving NOC PLL, the MEM PLLs of channels in use, the quad PLLs
of powered quads and the fabric PLLs of the design (R64, R95). -/
def State.deepPlls (s : State) : List Nat :=
  [if s.clk.standbyB then 4 else 5] ++ ((List.range 4).filter fun c => (s.chAt c).enabled).map (· + 9) ++
    ((List.range 24).filter fun q => s.lan.powered.getLsbD q && s.quadMode q != 0).map (· + 16) ++
    ((List.range 24).filter fun f => s.clk.fabPlls.getLsbD f).map (· + 40)

/-- Every PLL that DEEP powered down has locked again. -/
def State.deepRelocked (s : State) : Bool := s.deepPlls.all fun n => s.clk.good.getLsbD n

/-- Once the PLLs that DEEP powered down have locked, a device that wakes, or has left DEEP, goes on: NOC and MEM run, DDR
leaves self-refresh, the banks begin to clear and the links come up; an edge 40 ns later may enter RUN (R95). -/
def State.thaw (s : State) : State :=
  if s.pwr.chilled && s.deepRelocked && (s.mode != .deep || s.pwr.waking.isSome) then
    (s.syncWaits.modPwr fun p => { p with waking := p.waking.map fun _ => some (s.now + 40) }).leaveSleep
  else s

/-- A wake starts (R95). From SLEEP the gated domains restart within 100 ns, and an edge 40 ns later may enter RUN
(the bound is taken: DESIGN CHOICE, notes/assumptions/15.md); from DEEP the host link and the PLLs come first. -/
def State.startWake (s : State) : State :=
  match s.pwr.waking with
  | some _ => s
  | none =>
    if s.mode = .deep then
      ((s.modPwr fun p => { p with waking := some none }).modHst fun h => { h with lstate := 0 }).thaw
    else
      ((s.syncWaits.modPwr fun p => { p with waking := some (some (s.now + 140)) }).modClk fun c => { c with woken := [] }).leaveSleep.updBadger

/-- A wake source fires (R94): in SLEEP and DEEP an enabled one wakes the device; elsewhere it is pending until the
next edge, where it may abort an entry to SLEEP or DEEP (R92). -/
def State.fireWake (s : State) (src : Nat) : State :=
  if s.pwr.wakeEn.getLsbD src then
    if s.mode = .sleep ∨ s.mode = .deep then
      let s := s.modPwr fun p => { p with wakeCause := setBit p.wakeCause src true, wakePend := setBit p.wakePend src true }
      (s.raise .pwrWake (BitVec.ofNat 32 s.pwr.wakeCause.toNat)).startWake
    else s.modPwr fun p => { p with wakePend := setBit p.wakePend src true }
  else s

/-- Holdover: system time is disciplined by the device's own REFCLK only, so no slew of an earlier marker goes on
(R13, R46). -/
def State.toHoldover (s : State) : State :=
  (s.modTbs fun t => { t with role := 3, aligned := false, alignRun := 0 }).modTime fun t => { t with steer := 0 }

/-- The device follows a master (R33). -/
def State.follower (s : State) : Bool := s.tbs.role == 2 || s.tbs.role == 3

/-- A follower with a span link goes to holdover without an event, and will re-align in one step (R47). -/
def State.sleepFollower (s : State) : State :=
  if s.hasSpan && s.follower then
    (s.toHoldover.modTbs fun t => { t with realign := true }).modSpn fun p => { p with upstream := none }
  else s

/-- Enter SLEEP (R93). -/
def State.enterSleep (s : State) : State :=
  let s := ((s.syncWaits.setMode .sleep).linksDown.sleepFollower.modLan fun l => { l with idle := true }).modClk fun c => { c with woken := [] }
  (forN 4 (fun c s => s.modCh c fun k => { k with powerDown := k.enabled }) s).updLaps.updBadger

/-- A network transaction is in flight (R93): on the network, at a port, or accepted and not answered by a Burrow bank, a
DDR port, a queue or a den gate. -/
def State.inFlight (s : State) : Bool :=
  !(s.vnx.net.isEmpty && s.vnx.atTarget.isEmpty && s.brw.reqs.isEmpty &&
    (s.den.dens.cells.all fun c => c.2.inbound.isEmpty && c.2.held.isEmpty && c.2.outTags == 0) &&
    (s.mem.ch.cells.all fun c => c.2.portQ.isEmpty) &&
    (s.mem.dq.cells.all fun c => c.2.waits.isEmpty && c.2.pushes.isEmpty))

/-- Enter DEEP (R93, R64, R216). A wake that was under way from SLEEP ends there. -/
def State.enterDeep (s : State) : State :=
  let s := (s.syncWaits.holdPins.setMode .deep).linksDown.sleepFollower.modLan fun l => { l with idle := true }
  let s := s.modPwr fun p => { p with waking := none, chilled := true }
  let s := forN 4 (fun c s => s.modCh c fun k => { k with powerDown := false, selfRefresh := k.enabled }) s
  let s := forN 32 (fun b s => s.modBank b fun k =>
    if k.state = .off then { k with queued := false }
    else { k with state := if s.pwr.deepBank.getLsbD b || k.state == .clearing then .off else .retain, queued := false }) s
  let s := (forN 32 (fun b s => if (s.bankAt b).state = .off then s.wipeBank b else s) s).updLaps
  let s := s.modBrw fun w => { w with clearQ := [] }
  let s := s.modPwr fun p => { p with steps := p.steps.filter fun x => match x.1 with | .bankClear _ => false | _ => true }
  let s := s.modHst fun h => { h with lstate := h.deepest, tlps := h.tlps ++ [.ltr 1000] }
  let s := s.stallB.modPair 0 fun p => { p with wfi := true }
  let s := s.modClk fun c => { c with good := c.good &&& 0x00000000000001CF#64, fabRows := 0, woken := [] }
  let s := s.updBadger
  if s.inFlight then s.fireWake 5 else s

/-! ## STOP, HOLD, and the restarts -/

/-- Fuse burning stops at once (R362): the bits burned so far stay, in ascending order 10 µs each, and the bit being
burned may read either value: a free value. -/
def State.stopBurn (s : State) : State :=
  match s.fus.burning with
  | none => s
  | some (w, m) =>
    let old := s.fus.array.getD w.toNat 0
    let todo := (List.range 32).filter fun i => m.getLsbD i && !old.getLsbD i
    let k := (s.now - s.fus.burnAt) / 10000
    let sure := (todo.take k).foldl (fun x i => setBit x i true) old
    let new := match todo.drop k with | [] => sure | i :: _ => setBit sure i (s.free.getLsbD 0)
    (s.modFus fun f =>
      { f with burning := none, array := f.array.set 0 w.toNat new, pending := f.pending || new != old }).useFree

/-- Enter STOP with a cause of `PWR_STOP` (R97, Table 3.9). Brock-A runs on, and drain windows close with their swaps. -/
def State.enterStop (s : State) (cause : Nat) : State :=
  if s.mode = .stop ∨ !s.on then s
  else
    let s := (s.syncWaits.freePins.setCause .stop).setMode .stop
    let s := (s.freeTable.holdB).stopBadger.modPair 0 fun p => { p with wfi := false }
    let s := (forN 48 (fun d s => s.closeDrain d) s).updLaps
    let s := s.modPwr fun p =>
      { p with rel := { p.rel with next := 0, stage := 0 }, rowsRun := 0, outputsOn := false, waking := none, chilled := false
               resetPending := false, steps := p.steps.filter fun x => match x.1 with | .release _ _ => false | .fabWake _ => false | _ => true }
    let s := (s.modClk fun c => { c with fabRows := 0, woken := [] }).modFab Fab.toInit
    let s := forN 4 (fun c s => s.modCh c fun k => { k with selfRefresh := k.enabled, powerDown := false }) s
    (s.modHst fun h => { h with aerUnc := setBit h.aerUnc 22 true }).raise .pwrStop (BitVec.ofNat 32 cause)

/-- Re-block write enables, assert the global fabric reset, under which every register of the fabric holds its INIT, and cancel
the release (R58, R109, R113, R124). -/
def State.reblock (s : State) : State :=
  (s.modFab Fab.toInit).modPwr fun p =>
    { p with blocked := true, rowsOpen := 0, rowsRun := 0, outputsOn := false
             rel := { p.rel with next := 0, stage := 0 }
             steps := p.steps.filter fun x => match x.1 with | .release _ _ => false | .fabWake _ => false | _ => true }

/-- A STOP policy or request acts from RELEASE onward (Table 3.2). In the AON cycle of a restart to LOAD it goes before the
restart, as the higher row (R75, notes/assumptions/138.md). -/
def State.stopFrom (s : State) (cause : Nat) : State :=
  if s.mode.releaseOn then s.enterStop cause
  else match s.pwr.restartFrom with
    | some (c, m) => if s.mode = .load ∧ c = s.time.aon then (s.modPwr fun p => { p with mode := m }).enterStop cause else s
    | none => s

/-- Enter HOLD (R58, Table 3.9). A device asleep is awake there: what DEEP put away follows once its PLLs have locked. -/
def State.enterHold (s : State) : State :=
  let sleeping := s.mode = .sleep ∧ s.pwr.waking.isNone
  let s := if sleeping then s.leaveSleep else s
  let s := (s.syncWaits.freePins.reblock.setMode .hold).modPwr fun p => { p with waking := none }
  let s := (s.modClk fun c => { c with woken := [] }).modPair 0 fun p => { p with wfi := false }
  s.thaw.stallB.updLaps.updBadger

/-- What every entry to LOAD does (R38, R57, R145, R174, R210, R329, Table 3.9). -/
def State.loadEntry (s : State) : State :=
  let s := ((s.syncWaits.freePins.reblock.setMode .load).freeTable.holdB.stopBadger.modPair 0 fun p => { p with wfi := false }).updLaps
  let s := s.modPwr fun p => { p with candidate := none, checksOk := false, trained := 0, loadAt := s.now, flash := .single }
  let s := s.modTbs fun t => { t with checkOn := false, done := 0, doneNext := 0 }
  let s := s.modClk fun c => { c with fabRows := 0, woken := [] }
  let s := s.modBdg fun b => { b with sources := {}, rlPend := 0, rlBusy := false, rfBusy := false }
  let s := s.modDenBlk fun d => { d with loadBusy := false }
  let s := forN 48 (fun d s => s.modDen d fun n =>
    { n with shadow := .empty, shadowId := 0, shadowWork := false, shadowBlank := false, changed := false
             draining := false, freeze := none, inReset := true, badgerIso := none, endIso := none, ctrlQ := [], iso := none
             showPlane := false, swapping := false }) s
  forN 4 (fun c s => s.modCh c fun k => { k with enabled := false, selfRefresh := false, powerDown := false }) s

/-- Configuration returns to the unconfigured state: every active plane and every Sett (R85). -/
def State.unconfigure (s : State) : State :=
  (((s.modBdg fun b => { b with cram := {}, flips := {}, map := {} }).modFab fun f => { f with sett := {}, clocking := {} }).modClk
    fun c => { c with fabPlls := 0, fabUser := 0 }).modIoc fun i => { i with pins := [] }

/-- Enter LOAD, from LOCK or on a RESET-policy restart (R57): the slot table is read anew, and slot 0 comes first (R85). -/
def State.enterLoad (s : State) (restart : Bool) : State :=
  let from_ := s.mode
  let s := if s.pwr.chilled || (s.mode == .sleep && s.pwr.waking.isNone) then s.leaveSleep else s
  s.loadEntry.unconfigure.modPwr fun p =>
    { p with
      slotTable := none, trySlot := 0, restarted := restart, resetPending := false, waking := none, backup := false, reasons := 0
      restartFrom := if restart ∧ from_.releaseOn then some (s.time.aon, from_) else none }

/-! ## SENSE and the Ledger's replay -/

/-- No record can be written: the Ledger is full or disabled (R398). -/
def State.ledgerClosed (s : State) : Bool := s.evt.full || s.ledgerDis

/-- The record of an update (Table 16.5). -/
def State.ledgerRec (s : State) (u : LedgerUpd) : LedgerRec :=
  let mk (type : Byte) (stamp : BitVec 64) (a : Word) (b : BitVec 64) : LedgerRec :=
    LedgerRec.seal { type := type, boots := BitVec.ofNat 16 s.evt.hdr.boots.toNat, stamp := stamp, a := a, b := b, crc := 0 }
  match u with
  | .brw b e r => mk 1 s.stamp (ofFields [(0, b), (5, e), (8, r)]) 0
  | .mem c e l => mk 2 s.stamp (ofFields [(0, c), (2, e)]) (BitVec.ofNat 64 l)
  | .retire p => mk 3 s.stamp 0 (BitVec.ofNat 64 p)
  | .cramUe d => mk 4 s.stamp d 0
  | .fault c src d t => mk 5 t (ofFields [(0, c.toNat), (16, src.toNat)]) (BitVec.ofNat 64 d.toNat)

/-- The Ledger write or erase in progress is cut off (R394): the record of the update at the FIFO's head may have reached its slot,
whose number stays uncounted; of an erase, what has been erased is not stated, and is free for each slot
(notes/assumptions/40.md). -/
def State.cutLedger (s : State) : State :=
  let base := s.fresh
  if s.evt.erasing then
    (s.modEvt fun e => { e with recs := ⟨e.recs.cells.filter fun c => (Config.freeValue (base + c.1 / 64)).getLsbD (c.1 % 64)⟩ }).setFresh (base + 8)
  else match s.evt.fifo with
    | [] => s
    | u :: _ =>
      if s.ledgerClosed then s
      else
        (s.modEvt fun e =>
          { e with recs := if s.free.getLsbD 0 then e.recs.set none e.hdr.count (some (s.ledgerRec u)) else e.recs }).useFree

/-- The current header: the valid slot with the highest HSEQ (R393). -/
def currentHdr (t : Tab (Option LedgerHdr)) : Option (Nat × LedgerHdr) :=
  (List.range 64).foldl (fun best i =>
    match t.getD i none, best with
    | none, b => b
    | some h, none => some (i, h)
    | some h, some (j, b) => if b.hseq.toNat < h.hseq.toNat then some (i, h) else some (j, b)) none

/-- A remap entry is set, and a VALID entry that names the same item is cleared and spent (R212). -/
def remapSet (t : Tab RemapEntry) (n i item : Nat) (persisted : Bool) : Tab RemapEntry :=
  let t := (List.range n).foldl (fun t j =>
    let e := t.getD j {}
    if e.valid && e.item == item then t.set {} j {} else t) t
  t.set {} i { valid := true, persisted := persisted, item := item }

/-- Entries of a remap table that name an item already. -/
def remapOf (t : Tab RemapEntry) (n item : Nat) : Option Nat :=
  (List.range n).find? fun j => (t.getD j {}).valid && (t.getD j {}).item == item

/-- Re-apply one good record to the remap tables (R396). -/
def State.replayRec (s : State) (r : LedgerRec) : State :=
  match r.type.toNat with
  | 1 =>
    let b := field r.a 0 5
    let e := field r.a 5 3
    let row := field r.a 8 10
    let k := s.bankAt b
    if ((k.remap.getD e {}).valid && (k.remap.getD e {}).item != row) || k.spent.getLsbD e then s
    else s.modBank b fun k =>
      { k with
        spent := match remapOf k.remap 8 row with | none => k.spent | some j => if j = e then k.spent else setBit k.spent j true
        remap := remapSet k.remap 8 e row true }
  | 2 =>
    let c := field r.a 0 2
    let e := field r.a 2 4
    let line := field r.b 0 30
    let k := s.chAt c
    if ((k.remap.getD e {}).valid && (k.remap.getD e {}).item != line) || k.spentLines.getLsbD e then s
    else s.modCh c fun k =>
      { k with
        spentLines := match remapOf k.remap 16 line with
          | none => k.spentLines
          | some j => if j = e then k.spentLines else setBit k.spentLines j true
        remap := remapSet k.remap 16 e line true }
  | _ => s

/-- The Ledger is read back in SENSE (R396, R398). -/
def State.replayLedger (s : State) : State :=
  let found := currentHdr s.evt.hdrs
  let scan := ((List.range 512).find? fun i => (s.evt.recs.getD i none).isNone).getD 512
  let h : LedgerHdr := match found with | some (_, h) => h | none => { count := scan }
  let cur := match found with | some (i, _) => i | none => 63
  let s := s.modEvt fun e => { e with hdr := h, cur := cur, full := decide (512 ≤ h.count), faultSeen := [] }
  let s := s.raiseIf found.isNone .evtLedgerErr 1
  let s := forN (min h.count 512) (fun i s =>
    match s.evt.recs.getD i none with
    | none => s
    | some r =>
      if r.good then s.replayRec r
      else (s.modEvt fun e => { e with ledgerErr := satInc e.ledgerErr }).raise .evtLedgerErr (BitVec.ofNat 32 (2 + 65536 * i))) s
  let s := s.raiseIf (decide (512 ≤ h.count)) .evtLedgerFilled 0
  if s.ledgerDis then s
  else s.modEvt fun e =>
    let h' := { e.hdr with hseq := e.hdr.hseq + 1, boots := e.hdr.boots + 1 }
    let c := (e.cur + 1) % 64
    { e with hdr := h', cur := c, hdrs := e.hdrs.set none c (some h') }

/-- The state a device has with nothing latched, configured or running: what VCC_AON keeps, and nothing else
(Table 3.9, R98, R386, R388), with the banks found mismatched, which only a pin reset ends (R130). -/
def State.cold (s : State) (m : Mode) : State :=
  { State.reset with
    pending := s.pending
    bus := s.bus
    time := { now := s.time.now, aon := s.time.aon, aonPhase := s.time.aonPhase }
    pwr := { mode := m, prev := s.pwr.mode, cause := s.pwr.cause, causeFrom := s.pwr.causeFrom, rails := s.pwr.rails
             vcco := s.pwr.vcco, switches := if m = .ramp then 0 else 96, pinHigh := s.pwr.pinHigh }
    ioc := { level := s.ioc.level, mismatch := s.ioc.mismatch }
    brk := { a := { inReset := decide (m = .ramp), testAt := s.now }, b := { inReset := true, pc := resetVec 1, testAt := s.now }
             lastFrame := s.brk.lastFrame }
    fus := { array := s.fus.array }
    evt := { s.evt with
      route := {}, routeCode := {}, routeOf := {}, brkPend := 0, brkLastA := 0, brkLastB := 0, faultSeen := []
      fifo := [], fifoWait := [], erasing := false }
    fresh := s.fresh }

/-- Enter SENSE: the fuses are latched, the Ledger is replayed and Brock-A's ROM starts (R81, R328, R353, R357). -/
def State.enterSense (s : State) : State :=
  let s := s.stopBurn.cutLedger.cold .sense
  let s := s.modFus fun f => { f with latched := f.array, idOk := idOk f.array, pending := false }
  let s := s.raiseIf (!s.fus.idOk) .fusIdBad 0
  s.replayLedger

/-! ## Release -/

/-- Enter RELEASE and arm the three release actions (R88, R165). -/
def State.enterRelease (s : State) (fromHold : Bool) : State :=
  let rt := s.img.releaseTick
  let named := !fromHold && rt != 0 && s.tbs.tick.toNat < rt.toNat && s.sysNs + 40 ≤ s.edgeOf rt.toNat
  let late := !fromHold && rt != 0 && !named
  let first := if s.sysNs + 40 ≤ s.tbs.nextEdge.toNat || s.nextSkipped then 3 else 4
  let tick := if named then rt else s.tbs.tick + BitVec.ofNat 48 first
  let s := (s.setMode .release).modPwr fun p => { p with rel := { next := 1, dueTick := tick, tick := tick, late := late } }
  let s := s.raiseIf late .pwrReleaseLate 0
  let s := if s.bdg.state = .stopped then (s.startLap).modBdg fun b => { b with state := .running } else s
  s.updBadger

/-- Release stage work at an edge that is not skipped (R88 to R90): the stage that is due begins with group 0, or
slips while the one before is still in progress; the event names the one in progress (DEDUCED, notes/assumptions/112.md).
After stage 3 there is none to slip. -/
def State.releaseEdge (s : State) : State :=
  let r := s.pwr.rel
  if s.mode = .release ∧ 1 ≤ r.next ∧ r.next ≤ 3 then
    if r.stage ≠ 0 then
      if s.tbs.tick = r.dueTick ∧ r.stage < 3 then
        (s.modPwr fun p => { p with rel := { p.rel with slip := true, slipAfter := some 0 } }).raise .pwrReleaseSlip
          (BitVec.ofNat 32 r.stage)
      else s
    else
      let due := match r.slipAfter with | none => s.tbs.tick == r.dueTick | some t => decide (t ≤ s.now)
      if due then
        let s := s.modPwr fun p =>
          { p with rel := { p.rel with stage := p.rel.next, groups := 0, groupAt := s.now, slipAfter := none
                                       dueTick := s.tbs.tick + 1 } }
        s.requestStep (.release r.next 0)
      else s
  else s

end Sys2Proof.Machine
end

