-- ==== Sys2Proof/Machine/Format.lean ====
section
/-! DEFINITION. The bytes of images, plane images and slot tables (Tables 3.4, 15.1 to 15.4), their checks and their
authentication (R363 to R365), as functions on byte lists. -/

namespace Sys2Proof.Machine

/-- n entries of a table from index lo up take new values; the rest stay. -/
def Tab.fill {α : Type} [DecidableEq α] (t : Tab α) (d : α) (lo n : Nat) (f : Nat → α) : Tab α :=
  ⟨(t.cells.filter fun c => decide (c.1 < lo)) ++
    ((List.range n).map fun i => (lo + i, f i)).filter (fun c => decide (c.2 ≠ d)) ++
    t.cells.filter fun c => decide (lo + n ≤ c.1)⟩

/-- n bytes from offset o. -/
def slice (l : List Byte) (o n : Nat) : List Byte := (l.drop o).take n

/-- Byte o of a byte list, as a number. -/
def byteAt (l : List Byte) (o : Nat) : Nat := leAt l o 1

/-- CRC-32 of n bytes from offset o matches the word at offset at_. -/
def crcAt (l : List Byte) (o n at_ : Nat) : Bool := crc32 (slice l o n) == leAt l at_ 4

/-! ## The slot table -/

/-- A copy of the slot table is good: MAGIC and CRC (R84). -/
def slotTableOk (l : List Byte) : Bool := leAt l 0 4 == 0xC4A35107 && crcAt l 0 0x48 0x48

/-- COUNT, and VALID and LENGTH of each slot (Table 3.4). -/
def readSlotTable (l : List Byte) : SlotTable :=
  { count := leAt l 6 2
    slots := (List.range 4).map fun i => ((leAt l (0x10 + 16 * i) 4).testBit 0, BitVec.ofNat 32 (leAt l (0x0C + 16 * i) 4)) }

/-! ## Headers -/

/-- MAGIC, VERSION, HDR_CRC and LENGTH of an image or plane image (Table 15.1). -/
def hdrOk (magic len : Nat) (l : List Byte) : Bool :=
  leAt l 0 4 == magic && leAt l 4 2 == 1 && crcAt l 0 0x7FC 0x7FC && leAt l 8 4 == len && decide (len ≤ l.length)

def imgMagic : Nat := 0x53414B49
def planeMagic : Nat := 0x53414B50
def imgFlag (l : List Byte) (i : Nat) : Bool := (leAt l 6 2).testBit i
def imgSigned (l : List Byte) : Bool := imgFlag l 0
def imgEncrypted (l : List Byte) : Bool := imgFlag l 1

/-- PART and STEPPINGS fit the device (R3, R368); with a bad identity no image fits (R357). -/
def State.partFits (s : State) (l : List Byte) : Bool :=
  s.fus.idOk && leAt l 0xC 2 == 0x96 && (leAt l 0xE 2).testBit (s.fuse 72 4)

/-- SPEED and TEMP match the fuses (R3). -/
def State.gradeFits (s : State) (l : List Byte) : Bool := byteAt l 0x10 == s.fuse 69 2 && byteAt l 0x11 == s.fuse 71 1

/-! ## Authentication (R363 to R365) -/

/-- The fused AES key. -/
def State.aesKey (s : State) : BitVec 256 := BitVec.ofNat 256 (s.fuse 4800 256)
def State.keySet (s : State) : Bool := fuseBit s.fus.latched 4293
def State.hashLock (s : State) : Bool := fuseBit s.fus.latched 4292
def State.authReq (s : State) : Bool := fuseBit s.fus.latched 4290

/-- SHA-384 of the carried public key is the fused KEY_HASH. -/
def State.keyMatches (s : State) (l : List Byte) : Bool :=
  Config.sha384 (slice l 0x30 97) == BitVec.ofNat 384 (s.fuse 4416 384)

/-- The signature, the last 96 bytes, over every byte before it (R363). -/
def sigOk (l : List Byte) (len : Nat) : Bool :=
  Config.ecdsaOk (slice l 0x30 97) (Config.sha384 (l.take (len - 96))) (slice l (len - 96) 96)

/-- Table 14.6. -/
def State.authPasses (s : State) (l : List Byte) (len : Nat) : Bool :=
  if imgSigned l then
    sigOk l len && (!(s.hashLock || s.authReq) || s.keyMatches l) && (!s.authReq || s.hashLock)
  else !s.authReq

/-- The tag of an encrypted image, over ciphertext that ends at `stop` (R364, R371). -/
def State.tagPasses (s : State) (l : List Byte) (stop : Nat) : Bool :=
  !imgEncrypted l ||
    (s.keySet && Config.gcmTagOk s.aesKey (slice l 0x20 12) (l.take 4096) (slice l 4096 (stop - 4096)) (slice l stop 16))

/-- The content, decrypted where the image is encrypted (R364). -/
def State.plainText (s : State) (l : List Byte) (stop : Nat) : List Byte :=
  if imgEncrypted l then l.take 4096 ++ Config.gcmPlain s.aesKey (slice l 0x20 12) (slice l 4096 (stop - 4096)) else l

/-! ## Plane images -/

/-- The end of a plane image's frame data and map (R375). -/
def planeStop (l : List Byte) : Nat := 4096 + 1572864 + if imgFlag l 2 then 24576 else 0

/-- The length a plane image's flags call for (R371, R375). -/
def planeLen (l : List Byte) : Nat :=
  planeStop l + (if imgEncrypted l then 16 else 0) + if imgSigned l then 96 else 0

/-- The loader's header result before the first frame: FORMAT, TARGET, DEVICE, or 0 (R147, R375, Table 5.6). -/
def State.planeHeader (s : State) (den len : Nat) (l : List Byte) : Nat :=
  if !hdrOk planeMagic len l || planeLen l != len || leAt l 0xA0 8 != s.img.buildId.toNat then 3
  else if !(leAt l 0x18 8).testBit den then 4
  else if !s.partFits l || !s.gradeFits l then 5
  else 0

/-- The loader's result after the frames: AUTH, CRC, READBACK, or 0 OK (Table 5.6). -/
def State.planeBody (s : State) (len : Nat) (l : List Byte) (readbackOk : Bool) : Nat :=
  if !s.tagPasses l (planeStop l) || !s.authPasses l len then 6
  else if crc32 (slice l 4096 (planeStop l - 4096)) != leAt l 0x14 4 then 7
  else if !readbackOk then 9
  else 0

/-- Even byte parity of a 64-bit map word, in bits 71:64 (R159). -/
def mapParity (x : Nat) : Nat := (List.range 8).foldl (fun a b => a + (popCount (bits x (8 * b) 8) 8 % 2) * 2 ^ b) 0

/-- Frame a of CRAM begins plane p of den d (R156). -/
def planeBase (d : Nat) (p : Bool) : Nat := 6144 * d + 3072 * p.toNat

/-- The 64-bit word i of an array of bytes. -/
def word64 (x : Array Byte) (i : Nat) : BitVec 64 := BitVec.ofNat 64 (leNat ((List.range 8).map fun j => x.getD (8 * i + j) 0))

/-- A map word with its parity (R159), and whether the parity of a stored one is right (R160). -/
def mapWord (x : BitVec 64) : BitVec 72 := BitVec.ofNat 8 (mapParity x.toNat) ++ x
def mapGood (x : BitVec 72) : Bool := x == mapWord (x.extractLsb' 0 64)

/-- Write the frames and map words of one physical plane, with the check bits of each word: `data` holds 512 bytes a frame,
`map` 8 bytes a frame or nothing, which marks every word essential (R146, R156, R159, R372, R375). -/
def State.writePlane (s : State) (d : Nat) (p : Bool) (data map : List Byte) : State :=
  let a := planeBase d p
  let frames := data.toArray
  let marks := map.toArray
  s.modBdg fun b =>
    { b with
      cram := b.cram.fill 0 (64 * a) 196608 (word64 frames)
      flips := b.flips.fill 0 (64 * a) 196608 fun _ => 0
      map := b.map.fill 0 a 3072 fun i => mapWord (if map.isEmpty then BitVec.allOnes 64 else word64 marks i)
      bad := b.bad.filter fun x => !(a ≤ x.1 && x.1 < a + 3072) }

/-- The first n frames of a plane have been written by a load that did not come to its end: what has reached them is not
stated, and their words are free values (R170, notes/assumptions/83.md). -/
def State.writePart (s : State) (d : Nat) (p : Bool) (n : Nat) : State :=
  let a := planeBase d p
  let base := s.fresh
  (s.modBdg fun b =>
    { b with
      cram := b.cram.fill 0 (64 * a) (64 * n) fun i => Config.freeValue (base + i)
      flips := b.flips.fill 0 (64 * a) (64 * n) fun _ => 0
      bad := b.bad.filter fun x => !(a ≤ x.1 && x.1 < a + n) }).setFresh (base + 64 * n)

/-- Bits flip in words of a plane. -/
def State.strike (s : State) (d : Nat) (p : Bool) (l : List (Fin 196608 × BitVec 72)) : State :=
  s.modBdg fun b => { b with flips := l.foldl (fun t u => t.mod 0 (64 * planeBase d p + u.1.val) (· ^^^ u.2)) b.flips }

/-- A plane reads back as it was written (R146). -/
def State.readsBack (s : State) (d : Nat) (p : Bool) : Bool :=
  let lo := 64 * planeBase d p
  s.bdg.flips.cells.all fun c => !(decide (lo ≤ c.1) && decide (c.1 < lo + 196608))

/-- Write what a plane image holds into a plane. -/
def State.writePlaneImage (s : State) (d : Nat) (p : Bool) (l : List Byte) : State :=
  let t := s.plainText l (planeStop l)
  s.writePlane d p (slice t 4096 1572864) (if imgFlag l 2 then slice t (4096 + 1572864) 24576 else [])

/-! ## Full images -/

/-- A directory entry: TYPE, INST, OFFSET, LENGTH, CRC (R372). -/
structure Section where
  type : Nat
  inst : Nat
  off : Nat
  len : Nat
  crc : Nat
deriving DecidableEq, Repr

/-- The directory entries in use. -/
def sections (l : List Byte) : List Section :=
  (List.range (leAt l 0x12 2)).map fun i =>
    let o := 0x400 + 16 * i
    { type := leAt l o 2, inst := leAt l (o + 2) 2, off := leAt l (o + 4) 4, len := leAt l (o + 8) 4, crc := leAt l (o + 12) 4 }

/-- The end of the last section. -/
def lastEnd (l : List Byte) : Nat := (sections l).foldl (fun a x => max a (x.off + x.len)) 4096

/-- INST and LENGTH of a section fit its TYPE (Table 15.4). -/
def Section.fits (x : Section) : Bool :=
  match x.type with
  | 1 => decide (x.inst < 48) && x.len == 1572864
  | 2 => decide (x.inst < 48) && x.len == 24576
  | 3 => x.inst == 0 && x.len % 9220 == 0
  | 4 => x.inst == 0 && decide (x.len ≤ 524288)
  | 5 => decide (x.inst < 8) && x.len == 4100
  | 6 => x.inst == 0 && x.len == 784
  | 7 => x.inst == 0 && x.len % 8 == 0
  | _ => false

/-- The directory rules of R372 and the section CRCs, over the image as stored. -/
def dirOk (l : List Byte) : Bool :=
  let xs := sections l
  decide (1 ≤ xs.length) && decide (xs.length ≤ 63) &&
    (xs.all fun x => x.fits && x.off % 64 == 0 && decide (4096 ≤ x.off) && decide (x.off + x.len ≤ l.length) &&
      crc32 (slice l x.off x.len) == x.crc) &&
    (xs.zipIdx.all fun a => xs.zipIdx.all fun b => a.2 == b.2 ||
      ((a.1.type != b.1.type || a.1.inst != b.1.inst) &&
        (decide (a.1.off + a.1.len ≤ b.1.off) || decide (b.1.off + b.1.len ≤ a.1.off))))

/-- The gaps between sections are 0 (R372). -/
def gapsZero (l : List Byte) : Bool :=
  let xs := sections l
  (l.take (lastEnd l)).zipIdx.all fun b =>
    decide (b.2 < 4096) || b.1 == 0 || xs.any fun x => decide (x.off ≤ b.2) && decide (b.2 < x.off + x.len)

/-- The content of a section of the image, if it has one. -/
def sectionOf (l : List Byte) (type inst : Nat) : Option (List Byte) :=
  ((sections l).find? fun x => x.type == type && x.inst == inst).map fun x => slice l x.off x.len

/-- The REGS pairs, in order (R373). -/
def regPairs (l : List Byte) : List (Nat × Word) :=
  match sectionOf l 7 0 with
  | none => []
  | some r => (List.range (r.length / 8)).map fun i => (leAt r (8 * i) 4, BitVec.ofNat 32 (leAt r (8 * i + 4) 4))

/-- The value the pairs give a register: the last one prevails. -/
def regPair (ps : List (Nat × Word)) (a : Nat) : Option Word := (ps.filter fun p => p.1 == a).getLast?.map (·.2)

/-- The den in whose fabric a quad's raw interface lies (R253). -/
def rawDen (q : Nat) : Nat := if q < 12 then q / 3 else 44 + (q - 12) / 3

/-- Field ranges of Table 15.2, the OP order, and RELOAD on a static den (R172, R383). -/
def paramsOk (l : List Byte) : Bool :=
  let per := leAt l 0x100 4
  let lap := leAt l 0x15C 4
  (per == 0 || (decide (200 ≤ per) && decide (per ≤ 16777215))) &&
    decide (byteAt l 0x114 ≤ byteAt l 0x115) && decide (byteAt l 0x115 ≤ byteAt l 0x116) && decide (byteAt l 0x116 ≤ 3) &&
    decide (byteAt l 0x117 ≤ 1) && decide (byteAt l 0x158 ≤ 1) && decide (byteAt l 0x159 ≤ 1) &&
    (lap == 0 || (decide (40000 ≤ lap) && decide (lap ≤ 10000000))) && decide (byteAt l 0x258 ≤ 1) &&
    (List.range 48).all fun d =>
      decide (byteAt l (0x160 + d) ≤ 3) && !(byteAt l (0x160 + d) == 2 && (leAt l 0x190 8).testBit d)

/-- Safe-state codes 5 to 7 are refused (R131). -/
def safeOk (l : List Byte) : Bool :=
  match sectionOf l 6 0 with | none => true | some r => r.all fun b => decide (field b 0 3 ≤ 4)

/-- RSP_BEATS of the 16 queues of each port (R236, R379). -/
def beatsOk (ps : List (Nat × Word)) : Bool :=
  (List.range 4).all fun c =>
    decide (((List.range 16).foldl (fun a i =>
      a + match regPair ps (0x808000 + 0x40 * (16 * c + i)) with | none => 0 | some v => field v 16 13) 0) ≤ 4096)

/-- INTERLEAVE wants 2 or 4 populated channels of equal capacity (R227). -/
def memMapOk (l : List Byte) (ps : List (Nat × Word)) : Bool :=
  byteAt l 0x258 == 0 ||
    let caps := ((List.range 4).map fun c => match regPair ps (0x801000 + 0x100 * c) with
      | none => 0 | some v => field v 0 8).filter (· != 0)
    (caps.length == 2 || caps.length == 4) && caps.all fun c => some c == caps.head?

/-- A quad in RAW mode wants its den static (R253). -/
def rawOk (l : List Byte) (ps : List (Nat × Word)) : Bool :=
  (List.range 24).all fun q => match regPair ps (0x900000 + 4 * q) with
    | none => true
    | some v => field v 0 2 != 3 || (leAt l 0x190 8).testBit (rawDen q)

/-- The system section has its right CRC (Table 15.3). -/
def sysOk (l : List Byte) : Bool := crcAt l 0 0x7FC 0x7FC && decide (0x800 ≤ l.length)

/-- The parameters the device keeps from an image (Table 15.2). -/
def State.imgParams (s : State) (l : List Byte) (safe : List (BitVec 3)) : ImgParams :=
  { buildId := BitVec.ofNat 64 (leAt l 0x18 8), signed := imgSigned l, encrypted := imgEncrypted l
    keyMatched := imgSigned l && s.hashLock && s.keyMatches l, refetchEn := imgFlag l 2
    imageCrc := BitVec.ofNat 32 (leAt l 0x14 4), releaseTick := BitVec.ofNat 48 (leAt l 0x10C 8)
    capStop := byteAt l 0x117 == 1, capW := BitVec.ofNat 16 (leAt l 0x118 2), nocStep := BitVec.ofNat 16 (leAt l 0x11A 2)
    stepCost := (List.range 24).map fun i => BitVec.ofNat 16 (leAt l (0x11C + 2 * i) 2)
    lapTarget := BitVec.ofNat 32 (leAt l 0x15C 4), failStop := byteAt l 0x159 == 1, safe := safe }

end Sys2Proof.Machine
end

