-- ==== Sys2Proof/Machine/Pins.lean ====
section
/-! DEFINITION. I/O banks, output control, trigger pins and Sett error reports (chapter 4, R80, R220): the shared
operations, the IOC registers and the commands of this family. -/

namespace Sys2Proof.Machine

/-- The safe-state level of a weak pull counts as an input level (Table 4.8). -/
def safeWeak (c : BitVec 3) : Option Bool := if c = 1 then some false else if c = 2 then some true else none

/-! ## Rail monitors (R76) -/

/-- The mV above which a rail is good, and below which it is lost: the seven rails of `PWR_RAIL_STATUS`, then the 12 HP and 4 HD
banks (Table 3.3). -/
def railGoodAbove (r : Nat) : Nat :=
  match r with
  | 0 | 4 => 1620 | 1 => 660 | 2 | 3 => 850 | 5 => 1000 | 6 => 1130 | _ => if r < 19 then 850 else 1000
def railLostBelow (r : Nat) : Nat :=
  match r with
  | 0 | 4 => 1550 | 1 => 630 | 2 | 3 => 810 | 5 => 950 | 6 => 1080 | _ => if r < 19 then 800 else 950

/-! ## Trigger pins -/

/-- A TRIG action acts on its pin (R28, R40, R135, R41): a pulse an earlier action started ends. -/
def State.runTrig (s : State) (n : Nat) (arg : Word) : State :=
  if (s.pinAt n).src = 2 then
    s.modPin n fun p =>
      match field arg 0 2 with
      | 0 => { p with level := true, pulse := none, acted := true }
      | 1 => { p with level := false, pulse := none, acted := true }
      | k => { p with pulse := some (k == 2, s.now + field arg 8 16), acted := true }
  else s.raise .iocTrigNotTimed (BitVec.ofNat 32 n)

/-- A value of SRC and IDLE takes effect at an edge (R11, R135). -/
def TrigPin.apply (p : TrigPin) (v : Word) : TrigPin :=
  let src := BitVec.ofNat 2 (field v 0 2)
  let idle := v.getLsbD 2
  let p := { p with src := src, idle := idle, ev := if src = 3 then p.ev else none }
  if src = 2 then (if p.acted then p else { p with level := idle }) else { p with pulse := none, acted := false }

/-- The last of the queued writes that reach this edge under R11, and the writes that wait on. -/
def teTake (q : List TeWrite) (t : Nat) : Option Word × List TeWrite :=
  (((q.filter fun w => w.time + 40 ≤ t).getLast?).map (·.val), q.filter fun w => !(w.time + 40 ≤ t))

/-- TE writes of SRC and IDLE that reach the edge at hand take effect (R11). -/
def State.pinEdge (n : Nat) (s : State) : State :=
  s.modPin n fun p =>
    let r := teTake p.teQ s.now
    match r.1 with
    | none => { p with teQ := r.2 }
    | some v =>
      let q := if p.src = 2 then p else { p with acted := false }
      { q.apply v with teQ := r.2 }

/-- An event's route acts on an EVENT-sourced pin (R391, R392). -/
def State.routePin (s : State) (n : Nat) : State :=
  if (s.pinAt n).src = 3 then
    s.modPin n fun p => { p with ev := some (if p.evLevel then none else some (s.now + p.evWidth.toNat)) }
  else s

/-! ## Registers -/

/-- An IOC register at an offset of its block (Table 4.10). -/
def State.iocRead (s : State) (o : Nat) : Option Word :=
  if o = 0 then some (ofFields [(0, s.ioc.used.toNat), (16, s.ioc.mismatch.toNat)])
  else if o = 4 then some (ofFields [(0, s.ioc.level.toNat)])
  else if o = 8 then some (ofFields [(0, s.ioc.limit.toNat)])
  else if o = 0xC then some (ofFields [(0, s.ioc.stampNew.toNat), (16, s.ioc.overwrite.toNat)])
  else if o = 0x10 then
    some (ofFields [(0, s.safeForced.toNat), (1, s.ioc.safe.isNone.toNat), (2, s.pwr.outputsOn.toNat)])
  else if 0x100 ≤ o ∧ o < 0x140 then
    let p := s.pinAt ((o - 0x100) / 4)
    some (ofFields [(0, field p.teVal 0 3), (3, p.od.toNat), (4, p.wakeEdge.toNat), (6, p.stampEdge.toNat)])
  else if 0x200 ≤ o ∧ o < 0x280 then
    let p := s.pinAt ((o - 0x200) / 8)
    some (BitVec.ofNat 32 (if o % 8 = 0 then p.stamp.toNat else p.stamp.toNat / 2 ^ 32))
  else if 0x400 ≤ o ∧ o < 0x440 then
    let b := (o - 0x400) / 4
    some (ofFields [(0, (s.ioc.declared.getD b 0).toNat), (8, (s.ioc.measured.getD b 0).toNat)])
  else none

/-- A write to an IOC register (Tables 4.10, 4.11): SRC and IDLE are TE, the edge selections RW. -/
def State.iocWrite (s : State) (o : Nat) (v : Word) : Option State :=
  if (s.iocRead o).isNone then none
  else if o = 8 then some (s.modIoc fun i => { i with limit := i.limit &&& ~~~BitVec.ofNat 16 v.toNat })
  else if 0x100 ≤ o ∧ o < 0x140 then
    some (s.modPin ((o - 0x100) / 4) fun p =>
      { p with
        teVal := ofFields [(0, field v 0 3)], teQ := p.teQ ++ [{ time := s.now, val := ofFields [(0, field v 0 3)] }]
        wakeEdge := BitVec.ofNat 2 (field v 4 2), stampEdge := BitVec.ofNat 2 (field v 6 2) })
  else some s

/-! ## Commands -/

/-- TRIG_PULSE_END (R28): the pin returns to its level. -/
def execTrigPulseEnd (pin : Fin 16) (s : State) : Host.Outcome State Fault Refusal :=
  .next (match (s.pinAt pin).pulse with
    | none => s
    | some (_, t) => (s.advanceTo t).modPin pin fun p => { p with pulse := none })

/-- EVENT_PULSE_END (R392): WIDTH expires. -/
def execEventPulseEnd (pin : Fin 16) (s : State) : Host.Outcome State Fault Refusal :=
  .next (match (s.pinAt pin).ev with
    | some (some t) => (s.advanceTo t).modPin pin fun p => { p with ev := none }
    | _ => s)

/-- End LEVEL assertion on the named pins (R392). -/
def State.trigClr (s : State) (v : Word) : State :=
  forN 16 (fun n s =>
    if v.getLsbD n then s.modPin n fun p => if p.ev = some none then { p with ev := none } else p else s) s

/-- TRIG_INPUT_EDGE (R137, R80): stamp a selected edge, and wake source 2 on a selected wake edge. -/
def execTrigInputEdge (pin : Fin 16) (rising : Bool) (s : State) : Host.Outcome State Fault Refusal :=
  .next (s.whenOn fun s =>
    if s.pwr.vcco.getLsbD (trigBank pin) then
      let p := s.pinAt pin
      let hit (e : BitVec 2) : Bool := if rising then e.getLsbD 0 else e.getLsbD 1
      let s := s.modIoc fun i => { i with level := setBit i.level pin rising }
      let s := if hit p.stampEdge then
          (s.modPin pin fun p => { p with stamp := BitVec.ofNat 64 s.sysNs }).modIoc fun i =>
            { i with
              overwrite := if i.stampNew.getLsbD pin then setBit i.overwrite pin true else i.overwrite
              stampNew := setBit i.stampNew pin true }
        else s
      if hit p.wakeEdge then s.fireWake 2 else s
    else s)

/-- TRIG_CURRENT_LIMIT (R136): the sticky bit of an open-drain output, and its event when the bit goes up. -/
def execTrigCurrentLimit (pin : Fin 16) (s : State) : Host.Outcome State Fault Refusal :=
  .next (s.whenOn fun s =>
    if (s.pinAt pin).od then
      let was := s.ioc.limit.getLsbD pin
      (s.modIoc fun i => { i with limit := setBit i.limit pin true }).raiseIf (!was) .iocTrigLimit (BitVec.ofNat 32 pin)
    else s)

/-- VCCO_LOST (R80): the bank goes Hi-Z, its inputs read 0. In RAMP a VCCO is a rail, and the staging starts over (R76, R78;
notes/assumptions/41.md). A voltage not below the threshold of Table 3.3 is no loss. -/
def execVccoLost (bank : Fin 16) (mv : Nat) (s : State) : Host.Outcome State Fault Refusal :=
  .next (if railLostBelow (7 + bank) ≤ mv then s else
    let was := s.pwr.vcco.getLsbD bank
    let s := s.modPwr fun p => { p with vcco := setBit p.vcco bank false, switches := if p.mode = .ramp then 0 else p.switches }
    s.whenOn fun s =>
      let s := if 12 ≤ bank.val then
          s.modIoc fun i => { i with level := i.level &&& ~~~BitVec.ofNat 16 (15 * 2 ^ (4 * (bank.val - 12))) }
        else s
      s.raiseIf was .pwrVccoLost (BitVec.ofNat 32 bank))

/-- VCCO_RETURN (R80): the bank's outputs take the value they would now have. -/
def execVccoReturn (bank : Fin 16) (mv : Nat) (s : State) : Host.Outcome State Fault Refusal :=
  .next (if mv ≤ railGoodAbove (7 + bank) then s else s.modPwr fun p => { p with vcco := setBit p.vcco bank true })

/-- SETT_ECC_ERROR (R220, R223): each port's SBE adds to the den's bucket and count, a DBE sets the den's sticky bit. -/
def execSettEccError (den : Fin 48) (sbe : Nat) (dbe : Bool) (s : State) : Host.Outcome State Fault Refusal :=
  .next (s.whenOn fun s =>
    let r := bucketAdd (s.brw.settBucket.getD den 0) s.brw.settThresh sbe
    let was := s.brw.settUe.getLsbD den
    let s := s.modBrw fun w =>
      { w with
        settBucket := if sbe = 0 then w.settBucket else w.settBucket.set 0 den r.1
        settCe := satAdd w.settCe sbe
        settUe := if dbe then setBit w.settUe den true else w.settUe }
    (s.raiseIf (r.2 && sbe != 0) .brwSettCeBurst (BitVec.ofNat 32 den)).raiseIf (dbe && !was) .brwSettUe (BitVec.ofNat 32 den))

end Sys2Proof.Machine
end

