-- ==== Sys2Proof/Machine/Clocks.lean ====
section
/-! DEFINITION. Clocks, the Owl and operating points (chapter 2): judgement of sources, what a failure does in each
mode, domain gating, the DVFS sequencer, the CLK registers and the commands of this family. -/

namespace Sys2Proof.Machine

/-! ## Sources and domains -/

/-- The watched source a PLL locks to (Table 2.1): the PCIe reference for the HST PLL, REFCLK for the others; none for a
fabric PLL that the design feeds from a user clock (R115). -/
def State.pllRef (s : State) (n : Nat) : Option Nat :=
  if n = 8 then some 2 else if 40 ≤ n ∧ s.clk.fabUser.getLsbD (n - 40) then none else some 0

/-- The reference of a PLL is good, as far as the Owl judges it. -/
def State.refGood (s : State) (n : Nat) : Bool := match s.pllRef n with | none => true | some r => s.clk.good.getLsbD r

/-- Source numbers that are PLLs (Table 2.2). -/
def isPll (n : Nat) : Bool := (3 ≤ n && n ≤ 12) || (16 ≤ n && n < 64)

/-- Source n is in use (R55). -/
def State.srcUsed (s : State) (n : Nat) : Bool :=
  if n = 1 then s.clk.watchSpan && s.spn.upstream.isSome
  else if n = 4 ∨ n = 5 then (n == 5) != s.clk.standbyB || s.clk.phase != .idle
  else if 9 ≤ n ∧ n ≤ 12 then
    (s.chAt (n - 9)).enabled ||
      (s.mode == .verify && s.pwr.checksOk && s.chGiB (n - 9) != 0 && !s.pwr.trained.getLsbD (n - 9))
  else if 16 ≤ n ∧ n < 40 then s.lan.powered.getLsbD (n - 16) && s.quadMode (n - 16) != 0
  else if 40 ≤ n then s.clk.fabPlls.getLsbD (n - 40)
  else !(13 ≤ n && n < 16)

/-- Source n is watched in the present mode (R55, Table 2.3). -/
def State.watched (s : State) (n : Nat) : Bool :=
  match s.mode with
  | .off | .ramp | .sense => false
  | .lock => s.srcUsed n && s.clk.good.getLsbD n
  | .deep => n == 0 || n == 2 || n == 3 || n == 7 || n == 8
  | _ => s.srcUsed n

/-- The effective policy of a source: true is SAFE-HOLD (R56). -/
def State.safeHold (s : State) (n : Nat) : Bool := s.clk.policy.getLsbD n && !fuseBit s.fus.latched (4352 + n)

/-! ## Failure and recovery -/

/-- A RESET-policy failure of source n: outputs go safe, FAB stops, with a release or a restart of its groups in progress,
and LOAD follows once every failed source is good and its PLLs have locked (R57). -/
def State.resetFailure (s : State) (n : Nat) : State :=
  let s := s.modPwr fun p =>
    { p with resetPending := true, rel := { p.rel with next := 0, stage := 0 }
             steps := p.steps.filter fun x => match x.1 with | .release _ _ => false | .fabWake _ => false | _ => true }
  (s.modClk fun c => { c with fabRows := 0, awaitReset := setBit c.awaitReset n true }).stopBurn

/-- Under SAFE-HOLD, HOLD, with source n awaited (R58). -/
def State.holdFailure (s : State) (n : Nat) : State :=
  let s := if s.mode = .hold then s else s.enterHold
  s.modClk fun c => { c with awaitHold := setBit c.awaitHold n true }

/-- The outcome of Table 2.3 for a failure of source n detected in a mode (R60). -/
def State.failOutcome (s : State) (m : Mode) (n : Nat) : State :=
  let act (s : State) : State := if s.safeHold n then s.holdFailure n else s.resetFailure n
  match m with
  | .load | .verify => s.resetFailure n
  | .release | .run | .hold => act s
  | .sleep | .deep => act (if s.mode = .sleep ∨ s.mode = .deep then s.fireWake 4 else s)
  | _ => s

/-- The sequencer gives a change up (R69): the lower OP's frequency, and a write that commands the higher OP's voltage. -/
def State.opAbandon (s : State) : State :=
  let c := s.clk
  if c.phase = .idle then s
  else
    let hi := if c.opFrom.toNat < c.target.toNat then c.target else c.opFrom
    (s.modClk fun c =>
      { c with phase := .idle, avs := .write, avsAt := s.now, standbyLocked := false, volt := BitVec.ofNat 16 (s.opVolt hi.toNat) }).raise
      .clkOpFail (ofFields [(0, c.op.toNat), (2, c.target.toNat)])

/-- Record a watched source's failure, detected in mode m (R59). -/
def State.recordFail (m : Mode) (s : State) (n : Nat) : State :=
  (s.modClk fun c =>
    { c with fail := setBit c.fail n true, failCount := satInc c.failCount, failed := setBit c.failed n true }).raise
      .clkFail (ofFields [(0, n), (8, m.code)])

/-- The sources that fail with source n: itself, and the locked PLLs whose reference it is (R54). -/
def State.failSet (s : State) (n : Nat) : List Nat :=
  n :: (List.range 64).filter fun p => p != n && isPll p && s.pllRef p == some n && s.clk.good.getLsbD p

/-- An OP change that still needs the standby NOC PLL (Table 2.7). -/
def State.standbyNeeded (s : State) : Bool :=
  match s.clk.phase with
  | .idle | .lowerWrite | .lowerRead => false
  | _ => true

/-- The standby NOC PLL fails, or its reference does (R69). -/
def State.standbyFails (s : State) (n : Nat) : Bool :=
  s.standbyNeeded && (n == 0 || n == if s.clk.standbyB then 5 else 4)

/-- Source n is judged failed, with what depends on it (R54, R59, R60): all are judged as they stand at detection, and then
each has its outcome. The TMB domain stops where its PLL fails while REFCLK is good (R50). -/
def State.srcFail (s : State) (n : Nat) : State :=
  let m := s.mode
  let l := s.failSet n
  let w := l.filter s.watched
  let s := if w ≠ [] ∧ s.standbyFails n then s.opAbandon else s
  let s := (s.syncWaits.modClk fun c => { c with good := l.foldl (fun g p => setBit g p false) c.good }).updLaps
  let s := if n = 3 then s.modTime fun t => { t with tmbOff := t.sysOn } else s
  let s := w.foldl (State.recordFail m) s
  (w.foldl (fun s p => s.failOutcome m p) s).updBadger

/-- Source n is judged good or locked; one that had failed is reported good again (R59). -/
def State.srcGood (s : State) (n : Nat) : State :=
  let was := s.clk.failed.getLsbD n
  ((s.syncWaits.modClk fun c => { c with good := setBit c.good n true, failed := setBit c.failed n false }).updLaps).raiseIf was .clkGood
    (ofFields [(0, n)])

/-! ## The DVFS sequencer -/

/-- The effective target of a requested OP (R67). -/
def State.opClamp (s : State) (op : Nat) : Nat :=
  max s.clk.opMin.toNat (min op (min s.ceiling (min s.clk.opMax.toNat s.clk.govLimit.toNat)))

/-- The sequencer starts toward a target (Table 2.7). -/
def State.opStart (s : State) (t : Nat) : State :=
  if t = s.clk.op.toNat then s
  else
    let raising := s.clk.op.toNat < t
    s.modClk fun c =>
      { c with
        phase := if raising then .raiseWrite else .lowerLock
        avs := if raising then .write else c.avs
        volt := if raising then BitVec.ofNat 16 (s.opVolt t) else c.volt
        target := BitVec.ofNat 2 t, opFrom := c.op, opAt := s.now, avsAt := s.now, standbyLocked := false
        good := setBit c.good (if c.standbyB then 5 else 4) false }

/-- An OP change falls due at an edge (R67); while the sequencer is busy the target waits. -/
def State.opDue (s : State) (op : Nat) : State :=
  let t := s.opClamp op
  let s := s.raiseIf (t != op) .clkOpClipped (ofFields [(0, op), (2, t)])
  if s.clk.phase = .idle ∧ s.clk.pending.isNone then s.opStart t
  else s.modClk fun c => { c with pending := some (BitVec.ofNat 2 t) }

/-- At an edge, a waiting target starts once the change before it has completed. -/
def State.opPendingEdge (s : State) : State :=
  match s.clk.pending with
  | some t => if s.clk.phase = .idle then (s.modClk fun c => { c with pending := none }).opStart t.toNat else s
  | none => s

/-! ## Registers -/

/-- The domains in `CLK_STATUS` order. -/
def domains : List Domain := [.tmb, .noc, .fab, .cfg, .mgt, .hst, .mem, .lnk, .aon]

/-- The three enables of a domain as `CLK_GATE` shows them (Table 2.4). -/
def Clk.gate (c : Clk) : Domain → Nat
  | .tmb => 7 | .noc => 1 + 2 * c.nocSleep.toNat | .fab => c.fabRun.toNat + 2 * c.fabSleep.toNat
  | .cfg => 1 + 2 * c.cfgSleep.toNat | .mgt => 3 | .hst => 3 | .mem => c.memRun.toNat + 2 * c.memSleep.toNat
  | .lnk => c.lnkRun.toNat + 2 * c.lnkSleep.toNat | .aon => 7

/-- A CLK register at an offset of its block (Tables 2.8 to 2.10). -/
def State.clkRead (s : State) (o : Nat) : Option Word :=
  let c := s.clk
  let half (x : BitVec 64) (hi : Bool) : Option Word := some (BitVec.ofNat 32 (if hi then x.toNat / 2 ^ 32 else x.toNat))
  let mask (f : Nat → Bool) : BitVec 64 := (List.range 64).foldl (fun a n => setBit a n (f n)) 0
  if o = 0 then
    some (ofFields ((domains.zipIdx.map fun d => (d.2, (s.running d.1).toNat)) ++
      [(9, s.mgtOnAon.toNat), (10, c.standbyB.toNat)]))
  else if o = 4 then
    some (ofFields [(0, c.aonOk.toNat), (1, (c.good.getLsbD 0).toNat), (2, (c.good.getLsbD 1).toNat),
      (3, (c.good.getLsbD 2).toNat), (4, c.refRun), (8, c.spanRun), (12, c.pcieRun)])
  else if o = 8 then some (ofFields [(0, c.refCount.toNat), (16, c.pcieCount.toNat)])
  else if o = 0x10 then half (mask s.watched) false
  else if o = 0x14 then half (mask s.watched) true
  else if o = 0x18 then half (mask s.safeHold) false
  else if o = 0x1C then half (mask s.safeHold) true
  else if o = 0x20 then half c.good false
  else if o = 0x24 then half c.good true
  else if o = 0x28 then half c.fail false
  else if o = 0x2C then half c.fail true
  else if o = 0x30 then some c.failCount
  else if 0x40 ≤ o ∧ o ≤ 0x60 then some (ofFields [(0, c.gate (domains.getD ((o - 0x40) / 4) .aon))])
  else if o = 0x80 then
    some (ofFields [(0, c.op.toNat), (2, ((c.pending).getD c.target).toNat), (4, (c.phase != .idle).toNat),
      (5, c.pending.isSome.toNat), (16, c.volt.toNat)])
  else if o = 0x84 then
    some (ofFields [(0, s.ceiling), (2, c.opMin.toNat), (4, c.opMax.toNat), (6, c.govLimit.toNat),
      (8, (16 - s.trim) % 16)])
  else if o = 0x88 then some (ofFields [(0, c.railSel.toNat), (4, c.rate.toNat), (16, c.div.toNat)])
  else if o = 0x8C then some (ofFields [(0, c.vout.toNat)])
  else if o = 0x90 then half c.sync false
  else if o = 0x94 then half c.sync true
  else if o = 0x98 then some c.syncCount
  else if o = 0x9C then some c.wakeCount
  else none

/-- What a read of an RC register clears (Table 2.8). -/
def State.clkClear (s : State) (o : Nat) : State :=
  s.modClk fun c =>
    if o = 0x30 then { c with failCount := 0 } else if o = 0x98 then { c with syncCount := 0 }
    else if o = 0x9C then { c with wakeCount := 0 } else c

/-- A write to a CLK register (Table 2.8, R63): W1C failure bits and the RW enables of Table 2.4. -/
def State.clkWrite (s : State) (o : Nat) (v : Word) : Option State :=
  if (s.clkRead o).isNone then none
  else
    let s := s.syncWaits.modClk fun c =>
      if o = 0x28 then { c with fail := c.fail &&& ~~~BitVec.ofNat 64 v.toNat }
      else if o = 0x2C then { c with fail := c.fail &&& ~~~BitVec.ofNat 64 (v.toNat * 2 ^ 32) }
      else if o = 0x44 then { c with nocSleep := v.getLsbD 1 }
      else if o = 0x48 then { c with fabRun := v.getLsbD 0, fabSleep := v.getLsbD 1 }
      else if o = 0x4C then { c with cfgSleep := v.getLsbD 1 }
      else if o = 0x58 then { c with memRun := v.getLsbD 0, memSleep := v.getLsbD 1 }
      else if o = 0x5C then { c with lnkRun := v.getLsbD 0, lnkSleep := v.getLsbD 1 }
      else c
    some s.updLaps.updBadger

/-! ## Commands -/

/-- SYNC_EDGE (R51): the TMB domain latches system time and counts the edge. -/
def execSyncEdge (s : State) : Host.Outcome State Fault Refusal :=
  .next (if s.time.runs then
      s.modClk fun c => { c with sync := BitVec.ofNat 64 s.sysNs, syncCount := satInc c.syncCount }
    else s)

/-- A window of 1.024 µs counts AON cycles within ±10 % of the nominal 51.2 (R52). -/
def aonWithin (count : BitVec 16) : Bool := decide (4608 ≤ 100 * count.toNat ∧ 100 * count.toNat ≤ 5632)

/-- OWL_AON_WINDOW (R52, R60, R61): a window of AON judgement ends with a count of AON cycles. -/
def execOwlAonWindow (count : BitVec 16) (s : State) : Host.Outcome State Fault Refusal :=
  .next (s.whenOn fun s =>
    let s := s.modClk fun c => { c with aonCount := count }
    if aonWithin count then
      s.modClk fun c => { c with aonRun := min 8 (c.aonRun + 1), aonOk := c.aonOk || decide (7 ≤ c.aonRun) }
    else
      let was := s.clk.aonOk
      let s := s.modClk fun c => { c with aonRun := 0, aonOk := false }
      if s.mode = .sense then s
      else (s.raiseIf was .clkAonFail 0).enterStop 1)

/-- The run of accepted windows of a reference (Table 2.9). -/
def Clk.setRun (c : Clk) (src n : Nat) : Clk :=
  if src = 0 then { c with refRun := n } else if src = 1 then { c with spanRun := n } else { c with pcieRun := n }
def Clk.run (c : Clk) (src : Nat) : Nat := if src = 0 then c.refRun else if src = 1 then c.spanRun else c.pcieRun

/-- OWL_REF_WINDOW (R53): a count from 795 to 843 is accepted; 8 accepted windows in a row judge the source good, a
rejected one judges a good source failed. -/
def execOwlRefWindow (src : Fin 3) (count : BitVec 16) (s : State) : Host.Outcome State Fault Refusal :=
  .next (s.whenOn fun s =>
    if src.val = 1 ∧ !s.clk.watchSpan then s
    else
      let okay := decide (795 ≤ count.toNat ∧ count.toNat ≤ 843)
      let was := s.clk.good.getLsbD src
      let run := if okay then min 8 (s.clk.run src + 1) else 0
      let s := s.modClk fun c =>
        let c := c.setRun src run
        if src.val = 0 then { c with refCount := count } else if src.val = 2 then { c with pcieCount := count } else c
      if okay then (if run = 8 ∧ !was then s.srcGood src else s)
      else if was then s.srcFail src else s)

/-- OWL_MISSING_EDGE (R53): a good reference shows no edge for 40 ns. A source that is not good is judged by its windows
alone. -/
def execOwlMissingEdge (src : Fin 3) (s : State) : Host.Outcome State Fault Refusal :=
  .next (s.whenOn fun s => if s.clk.good.getLsbD src then (s.modClk fun c => c.setRun src 0).srcFail src else s)

/-- What follows the lock of a PLL besides its own bit (R12, R50, R62, R68, R95, R248). -/
def State.onLock (s : State) (n : Nat) : State :=
  let s := if n = 3 ∧ s.mode = .lock ∧ !s.time.sysOn then
      s.modTime fun t => { t with sysOn := true, sys := 0, steer := 0, steerGap := 40 }
    else if n = 3 then s.modTime fun t => { t with tmbOff := false }
    else s
  let s := if (n = 4 ∨ n = 5) ∧ (n = 5) = s.clk.standbyB ∧ s.clk.phase ≠ .idle ∧ !s.clk.standbyLocked then
      let s := s.modClk fun c => { c with standbyLocked := true }
      if s.clk.phase = .lowerLock then
        (s.modClk fun c => { c with phase := .lowerSwitch }).requestStep .opSwitch
      else if s.clk.phase = .raiseSwitch then s.requestStep .opSwitch
      else s
    else s
  let s := if 16 ≤ n ∧ n < 40 then
      let mode := field (s.lan.quad.getD (n - 16) 0) 0 2
      let s := forN 8 (fun k s =>
        let l := s.linkAt k
        if l.want && l.state == .down && field l.cfg 0 5 == n - 16 && s.mode != .sleep && s.mode != .deep then s.startLink k else s) s
      if mode = 1 then (List.range 4).foldl (fun s i =>
        let j := 4 * (n - 16) + i
        if s.laneUsed j && !(s.laneAt j).trained && (s.laneAt j).training.isNone then s.trainLane j else s) s
      else s
    else s
  s.thaw

/-- PLL_LOCK (R54): the lock detector of a PLL whose reference is good has seen 64 cycles within its threshold. -/
def execPllLock (src : Fin 64) (s : State) : Host.Outcome State Fault Refusal :=
  .next (s.whenOn fun s =>
    if isPll src && s.refGood src then ((s.srcGood src).onLock src).updBadger else s)

/-- PLL_LOSS (R54): a locked PLL leaves its threshold for 16 reference cycles. -/
def execPllLoss (src : Fin 64) (s : State) : Host.Outcome State Fault Refusal :=
  .next (s.whenOn fun s => if isPll src && s.clk.good.getLsbD src then s.srcFail src else s)

/-- The sources of a mask are good, and so are the PLLs in use that lock to them (R57, R58). -/
def State.recovered (s : State) (mask : BitVec 64) : Bool :=
  mask &&& s.clk.failed == 0 &&
    (List.range 64).all fun n =>
      !(isPll n && s.srcUsed n && (match s.pllRef n with | some r => mask.getLsbD r | none => false)) || s.clk.good.getLsbD n

/-- RESET_RESTART (R57): every failed source is good again and its PLLs have locked, so the device leaves for LOAD. -/
def execResetRestart (s : State) : Host.Outcome State Fault Refusal :=
  .next (s.whenOn fun s =>
    if s.pwr.resetPending ∧ s.clk.failed = 0 ∧ s.recovered s.clk.awaitReset then
      ((s.setCause .clockReset).modClk fun c => { c with awaitHold := 0, awaitReset := 0 }).enterLoad true
    else s)

/-- HOLD_EXIT (R58): every awaited source is good and its PLLs have locked, so the device leaves HOLD for RELEASE, which it
does not begin until ALIGNED is 1 (R14). -/
def execHoldExit (s : State) : Host.Outcome State Fault Refusal :=
  .next (if s.mode = .hold ∧ !s.pwr.resetPending ∧ s.recovered s.clk.awaitHold ∧ s.tbs.aligned then
      (s.modClk fun c => { c with awaitHold := 0 }).enterRelease true
    else s)

/-- A crossing into a domain (R72). Where it is stopped, AON starts it, or DEEP wakes as a whole; a start in SLEEP counts.
Traffic to a domain that was started this way keeps it going for 1 µs more. -/
def State.crossing (s : State) (d : Domain) : State :=
  if s.running d then
    s.modClk fun c => { c with woken := c.woken.map fun w => if w.1 = d then (d, s.now) else w }
  else if s.mode = .deep then s.fireWake 5
  else if s.domainSrc d then
    (s.syncWaits.modClk fun c =>
      { c with woken := c.woken ++ [(d, s.now)]
               wakeCount := if s.mode = .sleep then satInc c.wakeCount else c.wakeCount }).updLaps.updBadger
  else s

/-- Traffic reaches a domain: a stopped one is asked to wake (R64, R72, R197); true when the traffic can go on. -/
def State.reach (s : State) (d : Domain) : State × Bool :=
  let s := s.crossing d
  (s, s.running d)

/-- CROSSING_WAKE_REQUEST (R72). -/
def execCrossingWakeRequest (d : Domain) (s : State) : Host.Outcome State Fault Refusal :=
  .next (s.whenOn fun s => s.crossing d)

/-- DOMAIN_IDLE_REGATE (R72): 1 µs without traffic has passed. -/
def execDomainIdleRegate (d : Domain) (s : State) : Host.Outcome State Fault Refusal :=
  .next (match s.clk.woken.find? fun w => w.1 == d with
    | none => s
    | some w =>
      ((s.advanceTo (w.2 + 1000)).syncWaits.modClk fun c => { c with woken := c.woken.filter fun w => w.1 != d }).updLaps.updBadger)

/-- AVS_FRAME_DONE (R68, R69, Table 2.6): a frame completes; a status alert is a failed frame. -/
def execAvsFrameDone (ok : Bool) (mv : BitVec 16) (s : State) : Host.Outcome State Fault Refusal :=
  .next (s.whenOn fun s =>
    let c := s.clk
    let near := mv.toNat ≤ c.volt.toNat + 10 ∧ c.volt.toNat ≤ mv.toNat + 10
    match c.avs with
    | .none => s
    | .rate => s.modClk fun c => { c with avs := .write, volt := BitVec.ofNat 16 (s.opVolt 0), avsAt := s.now }
    | .write =>
      if c.phase = .raiseWrite ∨ c.phase = .lowerWrite then
        if ok then
          s.modClk fun c =>
            { c with avs := .none, avsAt := s.now, phase := if c.phase = .raiseWrite then .raiseRead else .lowerRead }
        else s.opAbandon
      else s.modClk fun c => if ok then { c with avs := .none, op0Done := true, avsAt := s.now } else { c with avsAt := s.now }
    | .read =>
      if !ok then s.opAbandon
      else if near then
        s.modClk fun c =>
          { c with avs := .none, vout := mv, avsAt := s.now
                   phase := if c.phase = .raiseRead then .settle else if c.phase = .lowerRead then .idle else c.phase }
      else s.modClk fun c => { c with avs := .none, vout := mv })

/-- AVS_VOLTAGE_POLL (R68): a voltage read starts 2,000 ns after the write or the read before it. -/
def execAvsVoltagePoll (s : State) : Host.Outcome State Fault Refusal :=
  .next (if (s.clk.phase = .raiseRead ∨ s.clk.phase = .lowerRead) ∧ s.clk.avs = .none then
      let s := s.advanceTo (s.clk.avsAt + 2000)
      s.modClk fun c => { c with avs := .read, avsAt := s.now }
    else s)

/-- OP_SETTLE_DONE (R68): the settle ends, and the NOC switches once the budget grants it. -/
def execOpSettleDone (s : State) : Host.Outcome State Fault Refusal :=
  .next (if s.clk.phase = .settle then
      let s := (s.advanceTo (s.clk.avsAt + 2000)).modClk fun c => { c with phase := .raiseSwitch }
      if s.clk.standbyLocked then s.requestStep .opSwitch else s
    else s)

/-- OP_CHANGE_TIMEOUT (R69): no read in range by 46,000 ns. -/
def execOpChangeTimeout (s : State) : Host.Outcome State Fault Refusal :=
  .next (match s.clk.phase with
    | .raiseWrite | .raiseRead | .lowerLock | .lowerWrite | .lowerRead => (s.advanceTo (s.clk.opAt + 46000)).opAbandon
    | _ => s)

end Sys2Proof.Machine
end

