-- ==== Sys2Proof/Machine/Events.lean ====
section
/-! DEFINITION. The event logger, its routes and the Ledger (chapter 16): shared operations, the EVT registers and the
commands of this family. -/

namespace Sys2Proof.Machine

/-! ## Routes -/

/-- Trigger MSI-X vector v: it is pending until its message is sent (R319). -/
def State.trigMsix (s : State) (v : Nat) : State := s.modHst fun h => { h with pba := h.pba.set false (v % 2048) true }

/-- The value of `EVT_ROUTE_n` (Table 16.8): by default, BRKA for classes 2 and 3. -/
def Evt.routeAt (e : Evt) (n : Nat) : Word := (e.route.getD n none).getD (if 2 ≤ n % 4 then 0x1000 else 0)

/-- The route of a record (R390). -/
def Evt.routeFor (e : Evt) (code : BitVec 16) : Word :=
  match (List.range 32).find? fun i =>
      (e.routeCode.getD i 0).getLsbD 31 && field (e.routeCode.getD i 0) 0 16 == code.toNat with
  | some i => e.routeOf.getD i 0
  | none => e.routeAt (4 * codeBlock code + codeClass code)

/-- A record with sequence number n acts on its route (R391). -/
def State.actRoute (s : State) (r : Word) (n : BitVec 64) : State :=
  let s := if r.getLsbD 11 then s.trigMsix (field r 0 11) else s
  let s := if r.getLsbD 12 then
      (s.modEvt fun e => { e with brkPend := setBit e.brkPend 0 true, brkLastA := BitVec.ofNat 32 n.toNat }).fireWake 3
    else s
  let s := if r.getLsbD 13 then
      s.modEvt fun e => { e with brkPend := setBit e.brkPend 1 true, brkLastB := BitVec.ofNat 32 n.toNat }
    else s
  if r.getLsbD 20 then s.routePin (field r 16 4) else s

/-! ## The Ledger -/

/-- Queue a Ledger update of a command: one that finds the FIFO full waits (R394). -/
def Evt.queueUpd (e : Evt) (u : LedgerUpd) : Evt :=
  if e.fifo.length < 16 then { e with fifo := e.fifo ++ [u] } else { e with fifoWait := e.fifoWait ++ [u] }

/-- Queue a copy of an event: one that finds the FIFO full is dropped and counted, and none is written to a full or
disabled Ledger (R397, R398). -/
def State.ledgerCopy (s : State) (u : LedgerUpd) : State :=
  if s.ledgerClosed then s
  else if s.evt.fifo.length < 16 then s.modEvt fun e => { e with fifo := e.fifo ++ [u] }
  else s.modEvt fun e => { e with ledgerErr := satInc e.ledgerErr }

/-- A FAULT record is made at the first occurrence of a code after SENSE, when the event is logged
(notes/assumptions/40.md). -/
def State.faultCopy (s : State) (r : EvRec) : State :=
  if codeClass r.code = 3 ∧ r.code ≠ Ev.code .bdgUeEssential ∧ !s.evt.faultSeen.contains r.code then
    (s.modEvt fun e => { e with faultSeen := r.code :: e.faultSeen }).ledgerCopy (.fault r.code r.source r.detail r.stamp)
  else s

/-- Write the next header slot (R394). -/
def Evt.putHdr (e : Evt) (h : LedgerHdr) : Evt :=
  { e with hdr := h, cur := (e.cur + 1) % 64, hdrs := e.hdrs.set none ((e.cur + 1) % 64) (some h) }

/-- A record and then a header are written; the 512th record fills the Ledger (R394, R398). -/
def State.ledgerAppend (s : State) (u : LedgerUpd) : State :=
  let h := s.evt.hdr
  let r := s.ledgerRec u
  let s := s.modEvt fun e =>
    { (Evt.putHdr { e with recs := e.recs.set none h.count (some r) }
        { h with hseq := h.hseq + 1, count := h.count + 1 }) with full := decide (512 ≤ h.count + 1) }
  s.raiseIf (decide (512 ≤ h.count + 1)) .evtLedgerFilled 0

/-- The command behind an update completes; `kept` says that its record was written. -/
def State.ledgerComplete (s : State) (u : LedgerUpd) (kept : Bool) : State :=
  match u with
  | .brw b e _ =>
    let s := if kept then s.modBank b fun k => { k with remap := k.remap.mod {} e fun x => { x with persisted := x.valid } } else s
    s.modBrw fun w => { w with rmPersist := false, rmWhere := BitVec.ofNat 8 (b + 32 * e), rmResult := if kept then 0 else 4 }
  | .mem c e _ =>
    let s := if kept then s.modCh c fun k => { k with remap := k.remap.mod {} e fun x => { x with persisted := x.valid } } else s
    s.modMem fun m => { m with rmPersist := false, rmResult := if kept then 0 else 4 }
  | .retire _ => s.modMem fun m => { m with retireBusy := false, retire := if kept then 0 else 1 }
  | _ => s

/-! ## The log -/

/-- The logger writes the head of the queue: log, route, Ledger copy, and `EVT_LOST` once there is room (R386, R388 to
R391, R397). -/
def State.logHead (s : State) : State :=
  match s.evt.queue with
  | [] => s
  | r :: q =>
    let n := s.evt.seq
    let s := s.modEvt fun e =>
      { e with
        queue := q, log := e.log.set none (n.toNat % 1024) (some r), seq := n + 1
        overwrites := if 1024 ≤ n.toNat then satInc e.overwrites else e.overwrites
        classCount := e.classCount.mod 0 (codeClass r.code) satInc }
    let s := (s.actRoute (s.evt.routeFor r.code) n).faultCopy r
    if s.evt.lostSince = 0 then s
    else
      let k := s.evt.lostSince
      (s.modEvt fun e => { e with lostSince := 0 }).raise .evtLost (BitVec.ofNat 32 k)

/-- The logger empties its queue before RAMP begins (R386); 64 entries and one report of losses at most. -/
def State.logAll (s : State) : State := forN 66 (fun _ s => s.logHead) s

/-- The logger runs: every mode from SENSE on but DEEP (R386). -/
def State.logging (s : State) : Bool := s.on && s.mode != .deep

/-- In DEEP an event that BRKA routes is a wake source although its record waits in the queue (R386, R391; DEDUCED,
notes/assumptions/139.md). -/
def State.deepEvent (s : State) : State :=
  if s.mode = .deep ∧ s.pwr.waking.isNone ∧ s.evt.queue.any fun r => (s.evt.routeFor r.code).getLsbD 12 then s.fireWake 3 else s

/-! ## Registers -/

/-- The four words of an event record (Table 16.1). -/
def EvRec.word (r : EvRec) (j : Nat) : Word :=
  match j with
  | 0 => BitVec.ofNat 32 r.stamp.toNat
  | 1 => BitVec.ofNat 32 (r.stamp.toNat / 2 ^ 32)
  | 2 => ofFields [(0, r.code.toNat), (16, r.source.toNat)]
  | _ => r.detail

/-- Word j of log record i; an index that holds no record reads 0. -/
def Evt.logWord (e : Evt) (i j : Nat) : Word := match e.log.getD i none with | none => 0 | some r => r.word j

/-- A word of the Ledger window (R393, Table 16.4); an erased byte reads 0xFF. -/
def Evt.ledgerWord (e : Evt) (o : Nat) : Word :=
  if o < 0x4000 then
    match e.recs.getD (o / 32) none with
    | none => 0xFFFFFFFF
    | some r => if o % 32 = 28 then r.crc else BitVec.ofNat 32 (leAt r.bytes (o % 32) 4)
  else if o < 0x5000 then
    match e.hdrs.getD ((o - 0x4000) / 64) none with
    | none => 0xFFFFFFFF
    | some h => Config.ledgerHeaderWord h.hseq h.count h.boots h.erases (o % 64 / 4)
  else 0xFFFFFFFF

/-- An EVT register at an offset of its block (Table 16.8). -/
def State.evtRead (s : State) (o : Nat) : Option Word :=
  let e := s.evt
  if o = 0 then some (ofFields [(0, e.queue.length)])
  else if o = 4 then some (BitVec.ofNat 32 e.seq.toNat)
  else if o = 8 then some (BitVec.ofNat 32 (e.seq.toNat / 2 ^ 32))
  else if o = 0xC then some e.overwrites
  else if o = 0x10 then some e.lost
  else if 0x20 ≤ o ∧ o ≤ 0x2C then some (e.classCount.getD ((o - 0x20) / 4) 0)
  else if o = 0x40 then some (ofFields [(0, e.full.toNat), (1, s.ledgerDis.toNat)])
  else if o = 0x44 then
    some (ofFields [(0, e.hdr.count), (12, (e.erasing || !e.fifo.isEmpty).toNat), (16, field e.hdr.boots 0 16)])
  else if o = 0x48 then some 0
  else if o = 0x4C then some e.ledgerErr
  else if o = 0x50 then some (ofFields [(0, e.brkPend.toNat)])
  else if o = 0x54 then some e.brkLastA
  else if o = 0x58 then some e.brkLastB
  else if o = 0x5C ∨ o = 0x60 then some 0
  else if 0x100 ≤ o ∧ o < 0x220 then some (e.routeAt ((o - 0x100) / 4))
  else if 0x300 ≤ o ∧ o < 0x400 then
    some (if o % 8 = 0 then e.routeCode.getD ((o - 0x300) / 8) 0 else e.routeOf.getD ((o - 0x300) / 8) 0)
  else if 0x400 ≤ o ∧ o < 0x440 then
    let p := s.pinAt ((o - 0x400) / 4)
    some (ofFields [(0, p.evLevel.toNat), (1, p.evActive.toNat), (8, p.evWidth.toNat)])
  else if 0x10000 ≤ o ∧ o < 0x14000 then some (e.logWord ((o - 0x10000) / 16) (o % 16 / 4))
  else if 0x20000 ≤ o ∧ o < 0x28000 then some (e.ledgerWord (o - 0x20000))
  else none

/-- What a read of an RC register clears (Table 16.8). -/
def State.evtClear (s : State) (o : Nat) : State :=
  s.modEvt fun e =>
    if o = 0xC then { e with overwrites := 0 } else if o = 0x10 then { e with lost := 0 }
    else if 0x20 ≤ o ∧ o ≤ 0x2C then { e with classCount := e.classCount.set 0 ((o - 0x20) / 4) 0 }
    else if o = 0x4C then { e with ledgerErr := 0 } else e

/-- The bits of Table 16.6. -/
def routeBits (v : Word) : Word := v &&& 0x1F3FFF

/-- `EVT_LEDGER_CMD` (R399): a keyed ERASE in RUN starts the erase. -/
def State.ledgerEraseCmd (s : State) (v : Word) : State :=
  if v.getLsbD 31 ∧ field v 0 16 = 0xE5A1 ∧ s.mode = .run ∧ !s.ledgerDis then s.modEvt fun e => { e with erasing := true }
  else s

/-- `EVT_RAISE` (R387). -/
def State.evtSoft (s : State) (m : MasterId) (v : Word) : State :=
  s.raiseBy (some m) (.evtSoft (BitVec.ofNat 2 (field v 0 2))) (BitVec.ofNat 32 (field v 8 24))

/-- A write to an EVT register (Table 16.8). -/
def State.evtWrite (s : State) (m : MasterId) (o : Nat) (v : Word) : Option State :=
  if (s.evtRead o).isNone then none
  else if o = 0x48 then some (s.ledgerEraseCmd v)
  else if o = 0x50 then some (s.modEvt fun e => { e with brkPend := e.brkPend &&& ~~~BitVec.ofNat 2 v.toNat })
  else if o = 0x5C then some (s.evtSoft m v)
  else if o = 0x60 then some (s.trigClr v)
  else if 0x100 ≤ o ∧ o < 0x220 then
    some (s.modEvt fun e => { e with route := e.route.set none ((o - 0x100) / 4) (some (routeBits v)) })
  else if 0x300 ≤ o ∧ o < 0x400 then
    some (s.modEvt fun e =>
      if o % 8 = 0 then { e with routeCode := e.routeCode.set 0 ((o - 0x300) / 8) (v &&& 0x8000FFFF) }
      else { e with routeOf := e.routeOf.set 0 ((o - 0x300) / 8) (routeBits v) })
  else if 0x400 ≤ o ∧ o < 0x440 then
    some (s.modPin ((o - 0x400) / 4) fun p =>
      { p with evLevel := v.getLsbD 0, evActive := v.getLsbD 1, evWidth := BitVec.ofNat 16 (field v 8 16) })
  else some s

/-- The words a read latches for the reading master (R15, R389): by 64 × register address + master. -/
def State.latchWords (s : State) (m : MasterId) (l : List (Nat × Word)) : State :=
  s.setLatch (l.foldl (fun t x => t.set 0 (64 * x.1 + m.toNat) x.2) s.latch)

/-! ## Commands -/

/-- The logger writes every 2 MGT cycles: 2.5 ns, or 40 ns on AON (R386). -/
def State.logTick (s : State) : State :=
  let t := max (2 * s.now) (s.evt.logAt + if s.mgtOnAon then 80 else 5)
  (s.advanceTo ((t + 1) / 2)).modEvt fun e => { e with logAt := t }

/-- EVENT_LOG_WRITE (R386). -/
def execEventLogWrite (s : State) : Host.Outcome State Fault Refusal :=
  .next (if s.logging then (if s.evt.queue.isEmpty then s else s.logTick.logHead) else s.deepEvent)

/-- EVT_RAISE (R387). -/
def execEvtRaise (m : MasterId) (val : Word) (s : State) : Host.Outcome State Fault Refusal :=
  .next (s.regWrite m 0x100005C fun s => s.evtSoft m val)

/-- EVT_TRIG_CLR (R392). -/
def execEvtTrigClr (m : MasterId) (val : Word) (s : State) : Host.Outcome State Fault Refusal :=
  .next (s.regWrite m 0x1000060 fun s => s.trigClr val)

/-- LOG_RECORD_READ (R389): word 0 is answered, and words 1 to 3 of the same record are latched for the reader. -/
def execLogRecordRead (m : MasterId) (i : BitVec 10) (s : State) : Host.Outcome State Fault Refusal :=
  let a := 0x1010000 + 16 * i.toNat
  .next (s.access m (BitVec.ofNat 48 a) false fun s =>
    (s.latchWords m [(a + 4, s.evt.logWord i.toNat 1), (a + 8, s.evt.logWord i.toNat 2), (a + 12, s.evt.logWord i.toNat 3)]).answer
      m .ok (s.evt.logWord i.toNat 0))

/-- LEDGER_UPDATE (R394): the update at the FIFO's head is written, its command completes, and the first that waits
takes the free place. Updates wait behind an erase (R399). -/
def execLedgerUpdate (s : State) : Host.Outcome State Fault Refusal :=
  .next (if s.on && !s.evt.erasing then
      match s.evt.fifo with
      | [] => s
      | u :: r =>
        let kept := !s.ledgerClosed
        let s := s.modEvt fun e => { e with fifo := r ++ e.fifoWait.take 1, fifoWait := e.fifoWait.drop 1 }
        (if kept then s.ledgerAppend u else s).ledgerComplete u kept
    else s)

/-- LEDGER_ERASE (R399). -/
def execLedgerErase (m : MasterId) (val : Word) (s : State) : Host.Outcome State Fault Refusal :=
  .next (s.regWrite m 0x1000048 fun s => s.ledgerEraseCmd val)

/-- LEDGER_ERASE_DONE (R399). -/
def execLedgerEraseDone (s : State) : Host.Outcome State Fault Refusal :=
  .next (if s.on && s.evt.erasing then
      let h := s.evt.hdr
      (s.modEvt fun e =>
        { (Evt.putHdr { e with recs := {} } { h with hseq := h.hseq + 1, count := 0, erases := h.erases + 1 }) with
          full := false, erasing := false }).raise .evtLedgerErased (BitVec.ofNat 32 (field (h.erases + 1) 0 16))
    else s)

end Sys2Proof.Machine
end

