-- ==== Sys2Proof/Machine/Power.lean ====
section
/-! DEFINITION. Rails, RAMP, SENSE and LOCK ends, the reset pin, wakes, the step budget, the power cap, the PWR registers
and the commands of this family (chapter 3). -/

namespace Sys2Proof.Machine

/-! ## Rails and the reset pin -/

/-- OFF: everything is lost but the fuse array and the Ledger's cells (R388, R393, Table 3.9). -/
def State.toOff (s : State) : State :=
  let s := s.stopBurn.cutLedger
  { State.reset with
    pending := s.pending
    bus := s.bus
    pwr := { mode := .off, prev := s.pwr.mode, rails := setBit s.pwr.rails 0 false, vcco := s.pwr.vcco, switches := 0
             pinHigh := s.pwr.pinHigh }
    brk := { a := { inReset := true } }
    fus := { array := s.fus.array }
    evt := { recs := s.evt.recs, hdrs := s.evt.hdrs, cur := s.evt.cur, hdr := s.evt.hdr }
    fresh := s.fresh }

/-- Every rail is good, the 16 VCCO banks among them (R76). -/
def State.railsGood (s : State) : Bool := s.pwr.rails == BitVec.allOnes 7 && s.pwr.vcco == BitVec.allOnes 16

/-- RAMP ends once the last switch step is closed, provided the pin is high (R78). -/
def State.rampEnd (s : State) : State :=
  if s.mode = .ramp ∧ s.pwr.switches = 96 ∧ s.railsGood ∧ s.pwr.pinHigh then s.enterSense else s

/-- A rail other than a VCCO is lost (R79): after RAMP the cause is recorded, the queued events are written, and the
device goes to RAMP. In RAMP the staging starts over (notes/assumptions/41.md). -/
def State.railLost (s : State) (rail : Nat) : State :=
  let was := s.pwr.rails.getLsbD rail
  let s := s.modPwr fun p => { p with rails := setBit p.rails rail false }
  if s.mode = .ramp then s.modPwr fun p => { p with switches := 0 }
  else if s.on && was then
    ((((s.stopBurn.setCause .railLoss).raise .pwrRailLost (BitVec.ofNat 32 rail)).logAll).cutLedger.cold .ramp)
  else s

/-! ## Registers -/

/-- The effective power cap in W; 0 is no cap (R102). -/
def State.effCap (s : State) : Nat :=
  let a := s.img.capW.toNat
  let b := s.pwr.capSw.toNat
  if a = 0 then b else if b = 0 then a else min a b

/-- A PWR register at an offset of its block (Tables 3.11 to 3.13). -/
def State.pwrRead (s : State) (o : Nat) : Option Word :=
  let p := s.pwr
  if o = 0 then some (ofFields [(0, p.mode.code), (4, p.prev.code), (8, p.resetPending.toNat)])
  else if o = 4 then some p.modeReq
  else if o = 8 then some 0
  else if o = 0xC then some (ofFields [(0, p.cause.code), (4, p.causeFrom.code)])
  else if o = 0x10 then some (ofFields [(0, p.rails.toNat), (8, p.vcco.toNat)])
  else if o = 0x14 then some (ofFields [(0, p.slot.toNat), (2, p.backup.toNat), (16, p.reasons.toNat)])
  else if o = 0x18 then some (ofFields [(0, p.rel.complete), (3, p.rel.late.toNat), (4, p.rel.slip.toNat)])
  else if o = 0x1C then some (BitVec.ofNat 32 p.rel.tick.toNat)
  else if o = 0x20 then some (BitVec.ofNat 32 (p.rel.tick.toNat / 2 ^ 32))
  else if o = 0x30 then some (ofFields [(0, p.wakeEn.toNat)])
  else if o = 0x34 then some (ofFields [(0, p.wakeCause.toNat)])
  else if o = 0x38 then some p.wakeInLo
  else if o = 0x3C then some p.wakeInHi
  else if o = 0x40 then some (ofFields [(0, p.wakeAt.isSome.toNat), (1, p.wakeRejected.toNat)])
  else if o = 0x44 then some (BitVec.ofNat 32 s.time.aon.toNat)
  else if o = 0x48 then some (BitVec.ofNat 32 (s.time.aon.toNat / 2 ^ 32))
  else if o = 0x50 then some p.deepBank
  else if o = 0x60 then some (ofFields [(0, p.didt.toNat)])
  else if o = 0x64 then some (ofFields [(0, p.depth.toNat)])
  else if o = 0x68 then some (ofFields [(0, p.tokens.toNat)])
  else if o = 0x6C then some p.stepWaits
  else if o = 0x70 then some (ofFields [(0, p.power.toNat)])
  else if o = 0x74 then some (ofFields [(0, p.peak.toNat)])
  else if o = 0x78 then some (ofFields [(0, s.img.capW.toNat), (16, s.effCap)])
  else if o = 0x7C then some (ofFields [(0, p.capSw.toNat)])
  else if o = 0x80 then some p.capCount
  else if o = 0x84 then some p.loadTime
  else none

/-- What a read of an RC register clears (Table 3.11). -/
def State.pwrClear (s : State) (o : Nat) : State :=
  s.modPwr fun p =>
    if o = 0x6C then { p with stepWaits := 0 } else if o = 0x74 then { p with peak := 0 }
    else if o = 0x80 then { p with capCount := 0 } else p

/-- A write to `PWR_MODE_REQ`, to be acted on at its edge (R11, R92). -/
def State.modeReqWrite (s : State) (v : Word) : State :=
  let v := ofFields [(0, field v 0 2)]
  s.modPwr fun p => { p with modeReq := v, modeReqQ := p.modeReqQ ++ [{ time := s.now, val := v }] }

/-- A write to `PWR_STOP_REQ` (R97, Table 3.2). -/
def State.stopReq (s : State) (v : Word) : State :=
  if field v 0 16 = 0xA5C3 then s.stopFrom 6 else s

/-- A write to `PWR_WAKE_IN_HI` arms, disarms or rejects (R96): the delay counts AON cycles of 20 ns. -/
def State.wakeArm (s : State) (v : Word) : State :=
  let d := v.toNat * 2 ^ 32 + s.pwr.wakeInLo.toNat
  let s := s.modPwr fun p =>
    { p with wakeInHi := v, wakeRejected := decide (2 ^ 48 ≤ d)
             wakeAt := if d = 0 ∨ 2 ^ 48 ≤ d then none else some (s.now + 20 * d) }
  s.raiseIf (decide (2 ^ 48 ≤ d)) .pwrWakeReject 0

/-- A write to `PWR_STEP_DEPTH` clamps the budget at once (R101). -/
def State.depthWrite (s : State) (v : Word) : State :=
  let d := field v 0 12
  if 500 ≤ d ∧ d ≤ 3500 then
    s.modPwr fun p => { p with depth := BitVec.ofNat 12 d, tokens := BitVec.ofNat 12 (min d p.tokens.toNat) }
  else s

/-- A write to a PWR register (Tables 3.11, 3.7). -/
def State.pwrWrite (s : State) (o : Nat) (v : Word) : Option State :=
  if (s.pwrRead o).isNone then none
  else if o = 4 then some (s.modeReqWrite v)
  else if o = 8 then some (s.stopReq v)
  else if o = 0x3C then some (s.wakeArm v)
  else if o = 0x64 then some (s.depthWrite v)
  else
    some (s.modPwr fun p =>
      if o = 0x30 then { p with wakeEn := BitVec.ofNat 6 (field v 0 4 + 48) }
      else if o = 0x34 then { p with wakeCause := p.wakeCause &&& ~~~BitVec.ofNat 6 v.toNat }
      else if o = 0x38 then { p with wakeInLo := v }
      else if o = 0x50 then { p with deepBank := v }
      else if o = 0x60 then
        if 2 ≤ field v 0 6 ∧ field v 0 6 ≤ 40 then { p with didt := BitVec.ofNat 6 (field v 0 6) } else p
      else if o = 0x7C then { p with capSw := BitVec.ofNat 16 v.toNat }
      else p)

/-! ## Commands -/

/-- VCC_AON_GOOD (R74): OFF to RAMP. -/
def execVccAonGood (mv : Nat) (s : State) : Host.Outcome State Fault Refusal :=
  .next (if s.mode = .off ∧ railGoodAbove 0 < mv then
      let s := s.setMode .ramp
      s.modPwr fun p => { p with rails := setBit p.rails 0 true, switches := 0 }
    else s)

/-- VCC_AON_LOST (R75): any mode to OFF. -/
def execVccAonLost (mv : Nat) (s : State) : Host.Outcome State Fault Refusal :=
  .next (if mv < railLostBelow 0 then s.toOff else s)

/-- RAIL_GOOD (R76): one of rails 0 to 6 of Table 3.3, then the 16 VCCO banks, has stood at a voltage for 64 AON cycles. -/
def execRailGood (rail : Fin 23) (mv : Nat) (s : State) : Host.Outcome State Fault Refusal :=
  .next (if mv ≤ railGoodAbove rail then s else s.modPwr fun p =>
    if rail.val < 7 then { p with rails := setBit p.rails rail true }
    else { p with vcco := setBit p.vcco (rail.val - 7) true })

/-- RAIL_LOST (R79); the loss of VCC_AON takes the device to OFF (R75). -/
def execRailLost (rail : Fin 7) (mv : Nat) (s : State) : Host.Outcome State Fault Refusal :=
  .next (if railLostBelow rail ≤ mv then s else if rail.val = 0 then s.toOff else s.railLost rail)

/-- POWER_SWITCH_STEP (R78): 64 AON cycles pass and one switch step closes. -/
def execPowerSwitchStep (s : State) : Host.Outcome State Fault Refusal :=
  .next (if s.mode = .ramp ∧ s.railsGood ∧ s.pwr.switches < 96 then
      ((s.advance 1280).modPwr fun p => { p with switches := p.switches + 1 }).rampEnd
    else s)

/-- SENSE_COMPLETE (R81): fuses and Ledger were handled on entry; once AON is good, LOCK begins. -/
def execSenseComplete (s : State) : Host.Outcome State Fault Refusal :=
  .next (if s.mode = .sense ∧ s.clk.aonOk then s.setMode .lock else s)

/-- LOCK_COMPLETE (R82): REFCLK good; TMB, CFG, MGT and NOC PLLs locked; OP0 commanded; election closed with a master. -/
def execLockComplete (s : State) : Host.Outcome State Fault Refusal :=
  let g := s.clk.good
  .next (if s.mode = .lock ∧ g.getLsbD 0 ∧ g.getLsbD 3 ∧ g.getLsbD 6 ∧ g.getLsbD 7 ∧
      g.getLsbD (if s.clk.standbyB then 4 else 5) ∧ s.clk.op0Done ∧ s.tbs.elected
    then s.enterLoad false else s)

/-- PWR_MODE_REQ_WRITE (R92). -/
def execPwrModeReqWrite (m : MasterId) (val : Word) (s : State) : Host.Outcome State Fault Refusal :=
  .next (s.regWrite m 0x200004 fun s => s.modeReqWrite val)

/-- WAKE_SOURCE (R94). -/
def execWakeSource (src : Fin 6) (s : State) : Host.Outcome State Fault Refusal :=
  .next (s.whenOn fun s => s.fireWake src)

/-- WAKE_TIMER_ARM (R96). -/
def execWakeTimerArm (m : MasterId) (val : Word) (s : State) : Host.Outcome State Fault Refusal :=
  .next (s.regWrite m 0x20003C fun s => s.wakeArm val)

/-- WAKE_TIMER_EXPIRE (R94): wake source 0. -/
def execWakeTimerExpire (s : State) : Host.Outcome State Fault Refusal :=
  .next (match s.pwr.wakeAt with
    | none => s
    | some t => ((s.advanceTo t).modPwr fun p => { p with wakeAt := none }).whenOn fun s => s.fireWake 0)

/-- PWR_STOP_REQ (R97). -/
def execPwrStopReq (m : MasterId) (val : Word) (s : State) : Host.Outcome State Fault Refusal :=
  .next (s.regWrite m 0x200008 fun s => s.stopReq val)

/-- STEP_GRANT (R100): the oldest waiting step is granted once the budget, refilled every ns, suffices. -/
def execStepGrant (s : State) : Host.Outcome State Fault Refusal :=
  .next (match s.pwr.steps with
    | [] => s
    | (k, cost) :: r =>
      let need := min cost s.pwr.depth.toNat - s.pwr.tokens.toNat
      let s := s.advance ((need + s.pwr.didt.toNat - 1) / s.pwr.didt.toNat)
      if s.affords cost then (s.modPwr fun p => { p with steps := r }).grant k cost else s)

/-- STEP_DEPTH_WRITE (R101). -/
def execStepDepthWrite (m : MasterId) (val : Word) (s : State) : Host.Outcome State Fault Refusal :=
  .next (s.regWrite m 0x200064 fun s => s.depthWrite val)

/-- RELEASE_GROUP (R89, R95): 64 ns after a group, the next is requested of the budget. -/
def execReleaseGroup (s : State) : Host.Outcome State Fault Refusal :=
  let r := s.pwr.rel
  let waits := s.pwr.steps.any fun x => match x.1 with | .release _ _ => true | .fabWake _ => true | _ => false
  .next (if r.stage = 0 ∨ r.groups = 0 ∨ 8 ≤ r.groups ∨ waits then s
    else (s.advanceTo (r.groupAt + 64)).requestStep (if r.stage = 4 then .fabWake r.groups else .release r.stage r.groups))

/-- POWER_WINDOW (R102 to R104): 100 windows above the cap lower the governor's limit, or report and may stop at
OP_MIN; 10,000 at or below 90 % of it raise the limit. -/
def execPowerWindow (deciwatts : BitVec 16) (s : State) : Host.Outcome State Fault Refusal :=
  .next (s.whenOn fun s =>
    let d := deciwatts.toNat
    let cap := s.effCap
    let above := decide (cap ≠ 0 ∧ 10 * cap < d)
    let under := decide (cap = 0 ∨ d ≤ 9 * cap)
    let s := s.modPwr fun p =>
      { p with
        power := deciwatts, peak := if p.peak.toNat < d then deciwatts else p.peak
        capOver := if above then p.capOver + 1 else 0, capUnder := if under then p.capUnder + 1 else 0
        capAtMin := above && p.capAtMin }
    if 100 ≤ s.pwr.capOver then
      if s.clk.opMin.toNat < s.clk.op.toNat then
        let l := s.clk.op - 1
        ((s.modClk fun c => { c with govLimit := l, govDue := some l }).modPwr fun p =>
          { p with capOver := 0, capCount := satInc p.capCount }).raise .pwrCapLower (BitVec.ofNat 32 l.toNat)
      else if s.pwr.capAtMin then
        let s := s.modPwr fun p => { p with capOver := 0 }
        if s.img.capStop then s.stopFrom 5 else s
      else (s.modPwr fun p => { p with capOver := 0, capAtMin := true }).raise .pwrCapAtMin 0
    else if 10000 ≤ s.pwr.capUnder then
      let l := s.clk.govLimit.toNat
      let s := s.modPwr fun p => { p with capUnder := 0 }
      if l < s.ceiling then
        (s.modClk fun c => { c with govLimit := BitVec.ofNat 2 (l + 1) }).raiseIf (decide (l + 1 = s.ceiling)) .pwrCapClear 0
      else s
    else s)

/-- PIN_RESET_ASSERT (R98, Table 3.8): the low reaches 100 µs. In OFF and RAMP it has no effect but on the level of the pin,
for which the end of RAMP waits (R78). A fuse command stops at once (R362). -/
def execPinResetAssert (s : State) : Host.Outcome State Fault Refusal :=
  .next (match s.mode with
    | .off | .ramp => s.modPwr fun p => { p with pinHigh := false }
    | _ => s.stopBurn.modPwr fun p => { p with pinHigh := false, pinReset := true })

/-- PIN_RESET_RELEASE (R98): the pin rises. -/
def execPinResetRelease (s : State) : Host.Outcome State Fault Refusal :=
  .next (match s.mode with
    | .off => s.modPwr fun p => { p with pinHigh := true }
    | .ramp => (s.modPwr fun p => { p with pinHigh := true }).rampEnd
    | m =>
      if s.pwr.pinReset then
        let s := (s.setCause .pinReset).modPwr fun p => { p with pinHigh := true, pinReset := false }
        (s.modIoc fun i => { i with mismatch := 0 }).enterSense.raise .pwrPinReset (BitVec.ofNat 32 m.code)
      else s)

end Sys2Proof.Machine
end

