-- ==== Sys2Proof/Machine/Network.lean ====
section
/-! DEFINITION. The Vexha network at work, cycle by cycle (R181 to R199): flits and credits on the trail, containers and slot
frames on the rings, and how far the network runs for a command (notes/assumptions/141.md). -/

namespace Sys2Proof.Machine

/-! ## Packets on the way -/

/-- Flits of a packet on the trail: its header and its data (R185). -/
def InFlight.flits (q : InFlight) : Nat := 1 + q.pkt.dataFlits

/-- It came over a span link. -/
def InFlight.remote (q : InFlight) : Bool := q.via.isSome

def Vnx.modFlight (v : Vnx) (id : Nat) (f : InFlight → InFlight) : Vnx :=
  { v with net := v.net.map fun q => if q.id = id then f q else q }

/-- The whole of a packet has reached the port of a unit. -/
def Vnx.arrive (v : Vnx) (id node : Nat) : Vnx := v.modFlight id fun q => { q with arrived := some v.cyc, dst := node }

/-! ## Trail links (R197, R198) -/

def linkKey (a b : Nat) (rsp : Bool) : Nat := 2 * (256 * a + b) + rsp.toNat

def Vnx.link (v : Vnx) (a b : Nat) (rsp : Bool) : TrailLink := v.links.getD (linkKey a b rsp) {}
def Vnx.modTrail (v : Vnx) (a b : Nat) (rsp : Bool) (f : TrailLink → TrailLink) : Vnx :=
  { v with links := v.links.mod {} (linkKey a b rsp) f }

/-- By cycle c: flits land in the buffer, and credits are back at the sender. -/
def TrailLink.land (c : Nat) (l : TrailLink) : TrailLink :=
  { l with
    buf := l.buf ++ (l.flying.filter fun x => decide (x.1 ≤ c)), flying := l.flying.filter fun x => decide (c < x.1)
    held := l.held + (l.returning.filter fun x => decide (x ≤ c)).length, returning := l.returning.filter fun x => decide (c < x) }

/-- The head of the buffer leaves in cycle c, and its credit sets out: back after the link's cycle and 2 more, and 6 more
across a bridge. -/
def TrailLink.pop (c : Nat) (bridge : Bool) (l : TrailLink) : TrailLink :=
  match l.buf with
  | [] => l
  | _ :: r => { l with buf := r, headAt := c, returning := l.returning ++ [c + 3 + if bridge then 6 else 0] }

/-- A flit sets out and takes a credit; a link belongs to one packet from its header to its LAST flit. -/
def TrailLink.take (x due : Nat) (f : TrailFlit) (l : TrailLink) : TrailLink :=
  { l with
    held := l.held - 1, flying := l.flying ++ [(due, f)], owner := if f.last then none else some x
    served := if f.first then x else l.served }

/-- A credit comes back early. -/
def TrailLink.credit (l : TrailLink) : TrailLink :=
  match l.returning with
  | [] => l
  | _ :: r => { l with held := l.held + 1, returning := r }

/-- Cycles the head of a buffer has waited there by cycle c. -/
def TrailLink.waited (l : TrailLink) (c : Nat) : Nat :=
  match l.buf with
  | [] => 0
  | (t, _) :: _ => c - max t l.headAt

/-! ## Routers (R183, R199) -/

/-- The packet whose flits a unit sends next on a virtual channel. -/
def Vnx.sending (v : Vnx) (u : Nat) (rsp : Bool) : Option InFlight :=
  v.net.find? fun q => q.src == u && q.chan == .trail rsp && q.arrived.isNone && decide (q.sent < q.flits) && decide (q.since ≤ v.cyc)

/-- The flit that input x of node a has for output b: a flit is ready to leave a router 2 cycles after it came. A unit's own
packets are its one input. -/
def Vnx.headFor (v : Vnx) (a b x : Nat) (rsp : Bool) : Option TrailFlit :=
  if 64 ≤ a then
    (v.sending a rsp).map fun q => { id := q.id, dst := q.dst, first := q.sent == 0, last := q.sent + 1 == q.flits }
  else
    let l := v.link x a rsp
    match l.buf with
    | [] => none
    | (t, f) :: _ => if t + 2 ≤ v.cyc ∧ l.headAt < v.cyc ∧ nextHop a f.dst = b then some f else none

/-- The inputs of a node, from the one after that served last (round-robin). -/
def inputsAfter (a served : Nat) : List Nat :=
  let l := if 64 ≤ a then [a] else neighbours a
  let i := l.idxOf served + 1
  l.drop i ++ l.take i

/-- The point where the head of a router's input waits. -/
def arbPoint (a x : Nat) (rsp : Bool) : ArbPoint := .router (Fin.ofNat 64 a) (Fin.ofNat 8 ((neighbours a).idxOf x)) rsp

/-- Output a → b serves an input: the packet that holds the link, else, round-robin, a boosted packet before any other. -/
def Vnx.choose (v : Vnx) (a b : Nat) (rsp : Bool) : Option (Nat × TrailFlit) :=
  let l := v.link a b rsp
  if l.held = 0 then none
  else match l.owner with
    | some x => (v.headFor a b x rsp).map (x, ·)
    | none =>
      let c := (inputsAfter a l.served).filterMap fun x =>
        match v.headFor a b x rsp with
        | some f => if f.first then some (x, f) else none
        | none => none
      (c.find? fun y => v.boosted.contains (arbPoint a y.1 rsp)).or c.head?

/-- A flit goes from input x of node a to output b, `lag` cycles after the link's own. -/
def Vnx.sendFlit (v : Vnx) (a b : Nat) (rsp : Bool) (lag : Nat) (y : Nat × TrailFlit) : Vnx :=
  let v := if 64 ≤ a then v.modFlight y.2.id fun q => { q with sent := q.sent + 1 }
    else v.modTrail y.1 a rsp (TrailLink.pop v.cyc (bridged y.1 a))
  let v := if y.2.first && decide (a < 64) then { v with boosted := v.boosted.filter (· != arbPoint a y.1 rsp) } else v
  v.modTrail a b rsp (TrailLink.take y.1 (v.cyc + 1 + lag) y.2)

/-- One cycle of an output: one flit, a response before a request. -/
def Vnx.serve (lag : Nat → Nat → Nat) (v : Vnx) (l : Nat × Nat) : Vnx :=
  match v.choose l.1 l.2 true with
  | some y => v.sendFlit l.1 l.2 true (lag l.1 l.2) y
  | none => match v.choose l.1 l.2 false with
    | some y => v.sendFlit l.1 l.2 false (lag l.1 l.2) y
    | none => v

/-- The outputs some flit is ready for. -/
def Vnx.wanted (v : Vnx) : List (Nat × Nat) :=
  ((v.net.filterMap fun q =>
      match q.chan with
      | .trail _ => if q.arrived.isNone && decide (q.sent < q.flits) then some (q.src, attach q.src) else none
      | _ => none) ++
    (v.links.cells.filterMap fun x =>
      let a := x.1 / 2 % 256
      match x.2.buf with
      | [] => none
      | (_, f) :: _ => if a < 64 then some (a, nextHop a f.dst) else none)).eraseDups

/-- A unit's port takes the flits of its link as they come, one a cycle, while its domain runs; of a virtual channel it
holds one whole packet at a time. -/
def Vnx.eject (runs : Nat → Bool) (v : Vnx) (u : Nat) (rsp : Bool) : Vnx :=
  match (v.link (attach u) u rsp).buf with
  | [] => v
  | (_, f) :: _ =>
    if runs u && !(f.first && v.net.any fun q => q.dst == u && q.arrived.isSome && q.chan == .trail rsp) then
      let v := v.modTrail (attach u) u rsp (TrailLink.pop v.cyc (bridged (attach u) u))
      if f.last then v.arrive f.id u else v
    else v

/-- A packet whose header has waited 256 cycles at the head of a router's input is boosted (R199). -/
def Vnx.boostDue (v : Vnx) (x : Nat × TrailLink) : Option ArbPoint :=
  let a := x.1 / 2 % 256
  match x.2.buf with
  | (_, f) :: _ =>
    if a < 64 ∧ f.first ∧ 256 ≤ x.2.waited v.cyc then some (arbPoint a (x.1 / 512) (x.1 % 2 == 1)) else none
  | [] => none

def Vnx.addBoost (v : Vnx) (w : ArbPoint) : Vnx := { v with boosted := if v.boosted.contains w then v.boosted else v.boosted ++ [w] }

/-- One NOC cycle of the trail. -/
def Vnx.trailCycle (runs : Nat → Bool) (lag : Nat → Nat → Nat) (v : Vnx) : Vnx :=
  let v := { v with links := v.links.mapVals {} (TrailLink.land v.cyc) }
  let v := v.links.cells.foldl (fun v x => if 64 ≤ x.1 / 2 % 256 then v.eject runs (x.1 / 2 % 256) (x.1 % 2 == 1) else v) v
  let v := v.wanted.foldl (Vnx.serve lag) v
  (v.links.cells.filterMap v.boostDue).foldl Vnx.addBoost v

/-! ## Rings (R181, R182, R190 to R196) -/

def Vnx.ringSt (v : Vnx) (k : Nat) : RingSt := v.rings.getD k {}
def Vnx.modRing (v : Vnx) (k : Nat) (f : RingSt → RingSt) : Vnx := { v with rings := v.rings.mod {} k f }

/-- The container that leaves station st of ring k in the present slot is occupied. -/
def Vnx.occupied (v : Vnx) (k : Nat) (ccw : Bool) (st : Nat) : Bool := v.ring.any fun c => c.ring == k && c.ccw == ccw && c.pos == st

/-- Every container of ring k moves on by one station; those that have come to their station are ejected there, which the
ring always grants. -/
def Vnx.moveRing (v : Vnx) (k : Nat) : Vnx :=
  let r := v.ring.map fun c => if c.ring = k then { c with pos := stationAfter c.ccw c.pos 1 } else c
  let here (c : Container) : Bool := c.ring == k && c.pos == c.dstSt
  let v := { v with
    ring := r.filter fun c => !here c
    marks := v.marks.map fun m => if m.ring = k then { m with pos := stationAfter m.ccw m.pos 1 } else m }
  (r.filter here).foldl (fun v c => v.arrive c.id ((stationUnit c.dstSt c.dstHard).getD csrNode)) v

/-- The packet leaves its port in a container of ring k, under the ring's epoch (R185). -/
def Vnx.load (v : Vnx) (k : Nat) (q : InFlight) (ccw : Bool) (st dstSt : Nat) (dstHard guar : Bool) : Vnx :=
  let v := v.modFlight q.id fun q =>
    { q with sent := 1, pkt := { q.pkt with hdr := { q.pkt.hdr with epoch := v.epoch.getLsbD k } } }
  { v with ring := v.ring ++ [{ ring := k, ccw := ccw, pos := st, id := q.id, dstSt := dstSt, dstHard := dstHard, guar := guar }] }

/-- A guaranteed packet that waits at its port. -/
def InFlight.queued (q : InFlight) (st : Nat) (hard : Bool) : Bool := q.chan == .guar st hard && q.sent == 0 && q.arrived.isNone

/-- Entry n of ring k's active table in its slot: the oldest packet of its flow takes the container, unless a packet already
on the ring is in it, or the den gate of the port is closed (R144, R192, R196). -/
def Vnx.runEntry (closed : Nat → Bool) (v : Vnx) (k n : Nat) : Vnx :=
  let e := v.entry (v.active k) n
  let st := field e 2 6
  let hard := e.getLsbD 8
  if e.getLsbD 0 && !v.occupied k (e.getLsbD 1) st && (hard || !closed st) then
    match v.net.find? fun q => q.queued st hard && q.pkt.hdr.flow.toNat == field e 16 8 && decide (q.since ≤ v.cyc) with
    | none => v
    | some q => v.load k q (e.getLsbD 1) st (field e 9 6) (e.getLsbD 15) true
  else v

/-- A link-slot is owned in the active epoch's table, or in the one that drains (R193, R195). -/
def Vnx.closedLink (v : Vnx) (k : Nat) (l : Bool × Nat × Nat) : Bool :=
  (v.ringSt k).on && (v.owned (v.active k) l || (v.draining.getLsbD k && v.owned (2 * k + (v.active k + 1) % 2) l))

/-- A control packet asks for the container that leaves its station in slot n: the container must be free and marked by no
other station, and no link-slot of its way may be owned. After 256 cycles its station marks the container (R199). -/
def Vnx.insertControl (k n : Nat) (v : Vnx) (q : InFlight) : Vnx :=
  match unitPort q.src, unitPort q.dst with
  | some (a, _), some (b, hard) =>
    let ccw := controlCcw a b
    let first := v.net.find? fun x => x.chan == .control k && x.sent == 0 && x.arrived.isNone && x.src == q.src
    if a = b then (v.modFlight q.id fun q => { q with sent := 1 }).arrive q.id q.dst
    else if v.occupied k ccw a || first.map (·.id) != some q.id then v
    else if v.marks.any fun m => m.ring == k && m.ccw == ccw && m.pos == a && m.station != a then v
    else if (List.range (hops ccw a b)).any fun h =>
        v.closedLink k (ccw, stationAfter ccw a h, (n + h) % v.frameSlots (v.active k)) then
      if 256 ≤ v.cyc - q.since ∧ !(v.marks.any fun m => m.ring == k && m.ccw == ccw && m.station == a) then
        { v with marks := v.marks ++ [{ ring := k, ccw := ccw, pos := a, station := a }] }
      else v
    else
      { v.load k q ccw a b hard false with marks := v.marks.filter fun m => !(m.ring == k && m.ccw == ccw && m.station == a) }
  | _, _ => v

/-- Frame 0 of a tick begins: an epoch switch of that edge takes effect, and the ring drains for 200 cycles (R190, R195). -/
def Vnx.beginFrames (v : Vnx) (k edge : Nat) : Vnx :=
  let v := if v.switching.getLsbD k && decide ((v.ringSt k).switchAt ≤ edge) then
      { v.modRing k fun r => { r with drainEnd := v.cyc + 200 } with
        epoch := setBit v.epoch k (!v.epoch.getLsbD k), draining := setBit v.draining k true, switching := setBit v.switching k false }
    else v
  v.modRing k fun r => { r with startAt := none, phase := 0, slot := 0, frame := 1, on := decide (48 ≤ v.frameSlots (v.active k)) }

/-- The frame of a ring that has run all its slots ends, and the next one follows (R190). -/
def RingSt.wrap (slots count : Nat) (r : RingSt) : RingSt :=
  if r.on && decide (slots ≤ r.slot) then
    if r.frame < count then { r with slot := 0, frame := r.frame + 1 } else { r with on := false }
  else r

/-- A slot of ring k begins: containers move, then guaranteed and control traffic enters. -/
def Vnx.beginSlot (closed : Nat → Bool) (v : Vnx) (k : Nat) : Vnx :=
  let v := (v.moveRing k).modRing k (RingSt.wrap (v.frameSlots (v.active k)) (v.frameCount (v.active k)))
  let n := (v.ringSt k).slot
  let v := if (v.ringSt k).on then (v.runEntry closed k n).modRing k fun r => { r with slot := n + 1 } else v
  (v.net.filter fun q => q.chan == .control k && q.sent == 0 && q.arrived.isNone && decide (q.since ≤ v.cyc)).foldl
    (Vnx.insertControl k n) v

/-- One NOC cycle of ring k, in the ns that begins at a local time. -/
def Vnx.ringCycle (closed : Nat → Bool) (ns : Nat) (v : Vnx) (k : Nat) : Vnx :=
  let v := match (v.ringSt k).startAt with
    | some e => if e + 8 ≤ ns then v.beginFrames k e else v
    | none => v
  let v := if (v.ringSt k).phase = 0 then v.beginSlot closed k else v
  let v := if v.draining.getLsbD k && decide ((v.ringSt k).drainEnd ≤ v.cyc) then { v with draining := setBit v.draining k false } else v
  v.modRing k fun r => { r with phase := 1 - r.phase }

/-- The rings see a tick edge: frames that still run end there (R190). -/
def Vnx.cutFrames (v : Vnx) (e : Nat) : Vnx :=
  (List.range 4).foldl (fun v k => v.modRing k fun r => { r with on := false, slot := 0, frame := 0, startAt := some e }) v

/-- A guaranteed request enters its port's queue of 32; false when the queue is full and the port back-pressures (R194). -/
def State.enterGuar (s : State) (p : Packet) (via : Option (Fin 8)) (st : Nat) (hard : Bool) : State × Bool :=
  if ((s.vnx.net.filter fun q => q.queued st hard).length) < 32 then
    let u := (stationUnit st hard).getD csrNode
    let q : InFlight :=
      { pkt := p, via := via, id := s.vnx.nextId, chan := .guar st hard, src := u, dst := u, link := s.routeOf p.hdr.dstDev
        since := s.cycNow }
    (s.modVnx fun v => { v with net := v.net ++ [q], nextId := v.nextId + 1 }, true)
  else (s, false)

/-! ## The network runs -/

/-- Cycles that a flit spends in a bridge on its way from a to b: 3 to 6 cycles of the destination's clock (R197), which of
them is open, and so is the FAB and LNK clock of a unit (notes/assumptions/141.md). -/
def State.bridgeLag (s : State) (a b : Nat) : Nat :=
  if !bridged a b then 0
  else
    let n := 3 + (Config.bridgeDelay b s.vnx.cyc).val
    let noc := 50 * s.nocPer20
    match unitDomain b with
    | .noc => n
    | .fab | .lnk => Config.bridgeCycles b n
    | .mem => (n * noc + 599) / 600
    | .cfg => (n * noc + 499) / 500
    | .mgt => if s.mgtOnAon then n * noc / 50 else (n * noc + 799) / 800
    | _ => (n * noc + 999) / 1000

/-- Report an orphan flow (R194). -/
def State.orphan (s : State) (p : Packet) (st : Nat) (hard : Bool) : State :=
  s.raise .vnxFlowOrphan (ofFields [(0, p.hdr.flow.toNat), (8, st), (14, hard.toNat)])

/-- The port where a packet waits answers it. -/
def State.portAnswer (s : State) (q : InFlight) (e : Err) : State :=
  s.enterNet (q.pkt.rsp e []) none q.src (masterNode q.pkt.hdr.src) false true

/-- Packets that wait at a port for a flow without an entry in any active table are answered BUSY (R194). -/
def State.orphans (s : State) : State :=
  let gone := s.vnx.net.filter fun q => match q.chan with
    | .guar st hard => q.sent == 0 && q.arrived.isNone && !s.vnx.flowActive st hard q.pkt.hdr.flow
    | _ => false
  let s := s.modVnx fun v => { v with net := v.net.filter fun q => !gone.contains q }
  gone.foldl (fun s q => match q.chan with
    | .guar st hard => (s.orphan q.pkt st hard).portAnswer q .busy
    | _ => s) s

/-- Units at whose stopped domain a flit waits raise a wake request (R72, R197). -/
def State.bridgeWakes (s : State) : State :=
  s.vnx.links.cells.foldl (fun s x =>
    let u := x.1 / 2 % 256
    if 64 ≤ u ∧ !x.2.buf.isEmpty ∧ !s.running (unitDomain u) then s.crossing (unitDomain u) else s) s

/-- One NOC cycle. -/
def State.netCycle (s : State) : State :=
  let v := { s.vnx with cyc := s.vnx.cyc + 1 }
  let v := (List.range 4).foldl (Vnx.ringCycle (fun d => (s.denAt d).closed) v.ranTo) v
  let v := v.trailCycle (fun u => s.running (unitDomain u)) s.bridgeLag
  let t := s.modVnx fun _ => v
  (if v.epoch = s.vnx.epoch then t else t.orphans).bridgeWakes

/-- NOC cycles that begin in the ns from local time t. -/
def State.cyclesOf (s : State) (t : Nat) : Nat := (t + 1) * s.nocPer20 / 20 - t * s.nocPer20 / 20

/-- The network runs for the ns from `ranTo` on: the rings see the edges that have come, and NOC, if it runs, has its
cycles. -/
def State.netNs (s : State) : State :=
  let t := s.vnx.ranTo
  let s := s.modVnx fun v =>
    let v := (v.edges.filter fun e => decide (e ≤ t)).foldl Vnx.cutFrames v
    { v with edges := v.edges.filter fun e => decide (t < e) }
  let s := if s.running .noc then forN (s.cyclesOf t) (fun _ s => s.netCycle) s else s
  s.modVnx fun v => { v with ranTo := t + 1 }

/-- Nothing moves on the network and no frame is due. -/
def Vnx.quiet (v : Vnx) : Bool :=
  (v.net.all fun q => q.arrived.isSome) && v.edges.isEmpty && v.ring.isEmpty && v.draining == 0 &&
    ((List.range 4).all fun k => !(v.ringSt k).on && (v.ringSt k).startAt.isNone) &&
    v.links.cells.all fun x => x.2.flying.isEmpty && x.2.buf.isEmpty && x.2.returning.isEmpty

/-- A quiet network is brought up to the present at once. -/
def State.netSkip (s : State) : State := s.modVnx fun v => { v with cyc := s.cycNow, ranTo := s.now }

/-- The network runs until `stop` holds, first up to the present and then on, while time passes; `fuel` bounds the ns. -/
def State.netUntil (stop : State → Bool) : Nat → State → State
  | 0, s => s
  | n + 1, s =>
    if stop s then s
    else if s.vnx.quiet then s.netSkip
    else State.netUntil stop n (if s.vnx.ranTo < s.now then s.netNs else (s.advance 1).netNs)

/-- The network runs up to the present. -/
def State.catchUp (s : State) : State := s.netUntil (fun t => decide (t.now ≤ t.vnx.ranTo)) (s.now - s.vnx.ranTo)

/-- The network runs on for n ns at most. -/
def State.netWait (s : State) (n : Nat) (stop : State → Bool) : State := s.netUntil stop (s.now - s.vnx.ranTo + n)

/-! ## Packets at their unit's port -/

/-- The same packet, under whatever epoch it travels (R185). -/
def samePacket (a b : Packet) : Bool := a.data == b.data && { a.hdr with epoch := b.hdr.epoch } == b.hdr

/-- The first packet that `mine` picks out among those which have reached their unit's port. -/
def State.atPort (s : State) (mine : InFlight → Bool) : Option InFlight := s.vnx.net.find? fun q => mine q && q.arrived.isSome

/-- The network runs, for 1 ms at most (R202), until the packet that `mine` picks out has reached its port. -/
def State.awaitPort (s : State) (mine : InFlight → Bool) : State :=
  s.netWait 1000000 fun t => (t.atPort mine).isSome || !(t.vnx.net.any mine)

/-- A packet leaves the network. -/
def State.takeNet (s : State) (q : InFlight) : State := s.modVnx fun v => { v with net := v.net.filter fun x => x.id != q.id }

/-- A packet is taken at its unit's port once it is there and the unit's domain runs; until then it stays. -/
def State.takePort (s : State) (mine : InFlight → Bool) (k : InFlight → State → State) : State :=
  let s := s.awaitPort mine
  match s.atPort mine with
  | none => s
  | some q =>
    let r := s.reach (unitDomain q.dst)
    if r.2 then k q r.1 else r.1

end Sys2Proof.Machine
end

