-- ==== Sys2Proof/Machine/Vexha.lean ====
section
/-! DEFINITION. The Vexha network inside the device (chapter 7): injection, slot tables, epochs, credits, the VNX registers
and the commands of this family, but for the arrival of a packet (Target.lean). -/

namespace Sys2Proof

/-- R186's checks that need no address map. -/
def Packet.malformed (p : Packet) : Bool :=
  let h := p.hdr
  4096 < h.addr.toNat % 4096 + h.bytes || ((h.guar || h.isAtomic) && 63 < h.len.toNat) ||
    (h.isAtomic && (h.bytes != 8 || h.addr.toNat % 8 != 0)) || 4 < h.opc.toNat

end Sys2Proof

namespace Sys2Proof.Machine

/-! ## Injection -/

/-- The address leads nowhere on this device (R186, R237). -/
def State.noPlace (s : State) (h : Hdr) : Bool :=
  if h.isPush then field h.addr 45 3 != 0 else (s.place h.addr).isNone

/-- Tags of a master that are outstanding (R200). -/
def State.tagBusy (s : State) (m : MasterId) (tag : BitVec 6) : Bool := (s.vnx.tags.getD m.toNat 0).getLsbD tag.toNat

def State.markTag (s : State) (m : MasterId) (tag : BitVec 6) (b : Bool) : State :=
  s.modVnx fun v => { v with tags := v.tags.mod 0 m.toNat fun t => setBit t tag.toNat b }

/-- The injection port takes a request of a master of this device (R184, R186, R200): the tag first, then the decode
checks (notes/assumptions/42.md), target 18 for another device (R348), and the channel. -/
def State.inject (s : State) (p : Packet) : State :=
  let p := { p with hdr := { p.hdr with srcDev := s.tbs.devNum } }
  let h := p.hdr
  if s.tagBusy h.src h.tag then s.answer h.src .busy 0
  else if p.malformed then s.answer h.src .decode 0
  else
    let far := h.dstDev != s.tbs.devNum
    if !far && s.noPlace h then s.answer h.src .decode 0
    else if far && s.denied h.src 18 (h.isRead || h.isAtomic || (h.isPush && h.addr.getLsbD 44))
        (h.isWrite || h.isAtomic || (h.isPush && !h.addr.getLsbD 44)) then
      (s.deny h.src 18 (!h.isRead) false).answer h.src .accessDenied 0
    else
      let s := (s.reach .noc).1
      if h.guar && !isControl h then
        match unitPort (masterNode h.src) with
        | none => s.answer h.src .busy 0
        | some (st, hard) =>
          if s.vnx.flowActive st hard h.flow then
            let r := s.enterGuar p none st hard
            if r.2 then r.1.markTag h.src h.tag true else s
          else (s.orphan p st hard).answer h.src .busy 0
      else (s.markTag h.src h.tag true).sendRequest p none

/-! ## Slot frames and epochs -/

/-- The rings are to restart their slot frames at an edge (R190). -/
def State.framesRestart (s : State) : State := s.modVnx fun v => { v with edges := v.edges ++ [s.now] }

/-- The last frame of the tick has ended on every ring, and every guaranteed packet that entered a ring has left it
(R191). -/
def State.loopDone (s : State) : Bool :=
  s.vnx.edges.isEmpty && (s.vnx.ring.all fun c => !c.guar) &&
    (List.range 4).all fun k => !(s.vnx.ringSt k).on && (s.vnx.ringSt k).startAt.isNone

/-- An EPOCH action acts on the rings of its mask (R195). -/
def State.epochAction (s : State) (mask e : Nat) : State :=
  let s := s.catchUp
  forN 4 (fun k s =>
    if !mask.testBit k || (s.vnx.epoch.getLsbD k).toNat = e ∧ !s.vnx.switching.getLsbD k then s
    else if !s.vnx.validated.getLsbD (2 * k + e) || s.vnx.draining.getLsbD k || s.vnx.switching.getLsbD k then
      s.raise .vnxEpochRefused (ofFields [(0, k), (2, e)])
    else (s.modVnx fun v =>
        { v.modRing k fun r => { r with switchAt := s.now } with switching := setBit v.switching k true }).raise .vnxEpochSwitch (ofFields [(0, k), (2, e)])) s

/-! ## Registers -/

/-- The table and entry a VNX address names: a slot entry or a frame register. -/
def vnxTable (o : Nat) : Option Nat :=
  if 0x10 ≤ o ∧ o < 0x30 then some ((o - 0x10) / 4)
  else if 0x10000 ≤ o ∧ o < 0x18000 then some ((o - 0x10000) / 0x1000)
  else none

/-- A VNX register at an offset of its block (Tables 7.6, 7.7). -/
def State.vnxRead (s : State) (o : Nat) : Option Word :=
  let v := s.catchUp.vnx
  if o = 0 then some (ofFields [(0, v.epoch.toNat), (4, v.draining.toNat), (8, v.validated.toNat)])
  else if 0x10 ≤ o ∧ o < 0x30 then some (v.frame.getD ((o - 0x10) / 4) 0)
  else if o = 0x40 then some 0
  else if o = 0x44 then some (v.result ||| BitVec.ofNat 32 v.validating.isSome.toNat)
  else if 0x10000 ≤ o ∧ o < 0x18000 then some (v.slot.getD ((o - 0x10000) / 4) 0)
  else none

/-- A write to a slot table entry or a frame register (R193). -/
def State.slotWrite (s : State) (o : Nat) (v : Word) : State × Err :=
  match vnxTable o with
  | none => (s, .decode)
  | some t =>
    let s := s.catchUp
    if s.vnx.tableLocked t then (s, .busy)
    else
      (s.modVnx fun x =>
        let x := { x with validated := setBit x.validated t false }
        if o < 0x10000 then { x with frame := x.frame.set 0 t (v &&& 0x0FFF07FF) }
        else { x with slot := x.slot.set 0 ((o - 0x10000) / 4) (v &&& 0x00FFFFFF) }, .ok)

/-- A write to `VNX_SLOT_CMD`; one check runs at a time (notes/assumptions/42.md). -/
def State.slotCmd (s : State) (v : Word) : State :=
  if v.getLsbD 3 ∧ s.vnx.validating.isNone then
    s.modVnx fun x => { x with validating := some (2 * field v 0 2 + field v 2 1) }
  else s

/-- A write to a VNX register. -/
def State.vnxWrite (s : State) (o : Nat) (v : Word) : Option (State × Err) :=
  if (s.vnxRead o).isNone then none
  else if o = 0x40 then some (s.slotCmd v, .ok)
  else if (vnxTable o).isSome then some (s.slotWrite o v)
  else some (s, .ok)

/-! ## Commands -/

/-- NET_REQUEST_INJECT (R184, R186, R200). -/
def execNetRequestInject (p : Packet) (s : State) : Host.Outcome State Fault Refusal := .next (s.whenOn fun s => s.inject p)

/-- Frames that ring k has begun in this tick, as far as its edges have reached it. -/
def State.begun (s : State) (k : Nat) : Nat := if s.vnx.edges.isEmpty then (s.vnx.ringSt k).frame else 0

/-- SLOT_FRAME_START (R190, R192): the network runs until the ring's next frame of the tick has begun. -/
def execSlotFrameStart (ring : Fin 4) (s : State) : Host.Outcome State Fault Refusal :=
  .next (s.whenOn fun s =>
    let s := s.catchUp
    let n := s.begun ring
    s.netWait 5000 fun t => decide (t.begun ring ≠ n) || (t.loopDone || !t.running .noc))

/-- VALIDATE (R193). -/
def execValidate (m : MasterId) (val : Word) (s : State) : Host.Outcome State Fault Refusal :=
  .next (s.regWrite m 0x600040 fun s => s.slotCmd (val ||| 8))

/-- VALIDATE_DONE (R193): the table's contents are checked as they are at the end. -/
def execValidateDone (s : State) : Host.Outcome State Fault Refusal :=
  .next (match s.vnx.validating with
    | none => s
    | some t =>
      let r := s.vnx.check t
      s.modVnx fun v =>
        { v with
          validating := none, validated := if r.isNone then setBit v.validated t true else v.validated
          result := ofFields [(1, r.isNone.toNat), (2, r.isSome.toNat), (4, r.getD 0), (14, t / 2), (16, t % 2)] })

/-- VNX_SLOT_WRITE (R193). -/
def execVnxSlotWrite (m : MasterId) (addr : Addr) (val : Word) (s : State) : Host.Outcome State Fault Refusal :=
  .next (s.regTry m addr fun s => s.slotWrite (addr.toNat - 0x600000) val)

/-- EPOCH_DRAIN_END (R195): the network runs until the ring's drain of 200 cycles is over; the old epoch's table becomes
writable. -/
def execEpochDrainEnd (ring : Fin 4) (s : State) : Host.Outcome State Fault Refusal :=
  .next (s.whenOn fun s => s.netWait 400 fun t => !t.vnx.draining.getLsbD ring || !t.running .noc)

/-- Something waits at a point of the network. -/
def State.waitsAt (s : State) : ArbPoint → Bool
  | .router r i rsp => !((s.vnx.link ((neighbours r).getD i 0) r rsp).buf.isEmpty)
  | .station k st => s.vnx.net.any fun q => q.chan == .control k.val && q.sent == 0 && q.arrived.isNone && (unitPort q.src).map (·.1) == some st.val

/-- It has waited 256 NOC cycles there (R199). -/
def State.boostedAt (s : State) (w : ArbPoint) : Bool :=
  match w with
  | .router _ _ _ => s.vnx.boosted.contains w
  | .station k st => s.vnx.marks.any fun m => m.ring == k.val && m.station == st.val

/-- ARB_BOOST (R199): the network runs until the packet that waits at the point has waited 256 cycles and is boosted, or its
station has marked a container, unless it gets on before. -/
def execArbBoost (w : ArbPoint) (s : State) : Host.Outcome State Fault Refusal :=
  .next (s.whenOn fun s => s.netWait 512 fun t => t.boostedAt w || !t.waitsAt w || !t.running .noc)

/-- CREDIT_RETURN (R198): the oldest credit on its way back over a link reaches the sender. -/
def execCreditReturn (a b : Fin 160) (rsp : Bool) (s : State) : Host.Outcome State Fault Refusal :=
  .next (s.modVnx fun v => v.modTrail a b rsp TrailLink.credit)

end Sys2Proof.Machine
end

