-- ==== Sys2Proof/Machine/Dens.lean ====
section
/-! DEFINITION. Dens, the den loader, swaps and isolation (chapter 5): shared operations, the DEN registers and the commands
of this family. -/

namespace Sys2Proof.Machine

/-! ## The gate -/

/-- A response the gate returns; the bytes it needs in the response buffer, in flits with its header (R141). -/
def rspFlits (p : Packet) : Nat := 1 + if p.hdr.isRead then (p.hdr.bytes + 63) / 64 else 0

/-- The outbound and inbound parts of the outstanding count (R142). -/
def Den.outCount (n : Den) : Nat := popCount n.outTags.toNat 64
def Den.inCount (n : Den) : Nat := n.inbound.length

/-- Two packets are the same request: device, master and tag (R200). -/
def sameReq (a b : Packet) : Bool := a.hdr.srcDev == b.hdr.srcDev && a.hdr.src == b.hdr.src && a.hdr.tag == b.hdr.tag

/-- The gate closes on traffic in flight (R152): accepted requests are answered DEN_GONE, and the responses still to
come for the den's own requests, pushes among them, will be discarded. -/
def State.cutTraffic (s : State) (d : Nat) : State :=
  let l := (s.denAt d).inbound
  let s := s.modDen d fun n => { n with inbound := [], gone := [], dropTags := n.outTags ||| n.pushTags }
  l.foldl (fun s r => s.respond r.pkt .denGone []) s

/-- Held requests are answered DEN_GONE (R153). -/
def State.dropHeld (s : State) (d : Nat) : State :=
  let l := (s.denAt d).held
  l.foldl (fun s p => s.respond p .denGone []) (s.modDen d fun n => { n with held := [] })

/-- Isolation begins at an edge (R144, R153, R172, R374). A drain window that is open stays so until its swap's edge (R148,
notes/assumptions/44.md). -/
def State.isolate (s : State) (d : Nat) (report : Bool) : State :=
  let s := ((s.latchIso d).cutTraffic d).dropHeld d
  (s.modDen d fun n => { n with isolated := true, inReset := true }).raiseIf report .denIsolated
    (BitVec.ofNat 32 d)

/-- Isolation is to end with the steps from +40 to +64 (R153, R174). -/
def State.unisolate (s : State) (d : Nat) (reload : Bool) : State :=
  s.modDen d fun n => { n with freeze := some (.switching, s.now), freezeEnds := true, freezeSwap := false, reloadEnd := reload }

/-- What falls to den d at a tick edge before its swaps (R153, R154, R172, R174). -/
def State.denEdge (d : Nat) (s : State) : State :=
  let n := s.denAt d
  let te := teTake n.ctrlQ s.now
  let s := s.modDen d fun n => { n with ctrlQ := te.2 }
  let s := match te.1 with
    | none => s
    | some v =>
      if v.getLsbD 0 then (if n.isolated then s else s.isolate d true)
      else if n.isolated then s.unisolate d false else s
  let s := match (s.denAt d).badgerIso with
    | some (t, reload) =>
      if t ≤ s.now then
        let s := s.modDen d fun n => { n with badgerIso := none }
        let s := if (s.denAt d).isolated then s else s.isolate d false
        if reload then s.modBdg fun b => { b with rlPend := setBit b.rlPend d true } else s
      else s
    | none => s
  match (s.denAt d).endIso with
  | some t => if t ≤ s.now then (s.modDen d fun n => { n with endIso := none }).unisolate d true else s
  | none => s

/-- The swap of a den at its edge (R149 to R152, R154): STATIC, NOT_READY and DRAIN are checked in this order
(notes/assumptions/44.md). -/
def State.denSwap (s : State) (d : Nat) (force : Bool) : State :=
  let n := s.denAt d
  let busy := s.bdg.rlPend.getLsbD d || (s.bdg.rlBusy && s.bdg.rlDen.toNat == d)
  let why := if n.isStatic then 3 else if n.shadow != .ready || busy then 2
    else if !force && n.outCount + n.inCount != 0 then 1 else 0
  if why ≠ 0 then
    let s := (s.modDen d fun n => { n with lastAbort := BitVec.ofNat 2 why, draining := false }).raise .denSwapAbort
      (ofFields [(0, d), (6, why)])
    if n.isolated then s.dropHeld d else s.presentHeld d
  else
    let lost := if force then popCount (n.outTags ||| n.pushTags).toNat 64 else 0
    let s := s.latchIso d
    let s := if force then s.cutTraffic d else s
    let was := s.tbs.doneMask.getLsbD d
    let s := s.modTbs fun t => { t with doneMask := setBit t.doneMask d n.shadowWork }
    let s := s.modDen d fun n =>
      { n with
        draining := false, inReset := true, swapping := true, gone := [], shadowWork := was, changed := true, swapCount := satInc n.swapCount
        freeze := some (.switching, s.now), freezeSwap := true
        freezeEnds := if n.freeze.isSome then n.freezeEnds else !n.isolated }
    s.raise .denSwap (ofFields [(0, d), (6, force.toNat), (16, min lost 255)])

/-- The planes change places (R150, R151, R153). -/
def Den.exchange (n : Den) : Den :=
  { n with
    active := !n.active, shadow := if n.activeEmpty then .empty else .ready, activeId := n.shadowId, shadowId := n.activeId
    activeEmpty := false, src := n.activeSrc, activeSrc := n.src }

/-- The response to a den's own request reaches its gate (R141, R152), and counts as fully taken by the den there (DESIGN
CHOICE: R142 counts until the den has taken it, and no row says when DG_ORSP_READY does; notes/assumptions/44.md). -/
def State.denTakes (s : State) (d : Nat) (tag : BitVec 6) : State :=
  s.modDen d fun n =>
    { n with
      forceCount := if n.dropTags.getLsbD tag.toNat then satInc n.forceCount else n.forceCount
      dropTags := setBit n.dropTags tag.toNat false, outTags := setBit n.outTags tag.toNat false
      pushTags := setBit n.pushTags tag.toNat false
      reserved := n.reserved.set 0 tag.toNat 0 }

/-! ## The loader -/

/-- A load of the loader's den ends with a result (R147). -/
def State.loadEnds (s : State) (r : Nat) (neterr : Nat) (frames : BitVec 12) : State :=
  let d := s.den.loadDen.toNat
  let s := s.modDenBlk fun b =>
    { b with loadBusy := false, loadResult := BitVec.ofNat 4 r, loadErr := BitVec.ofNat 4 neterr, loadFrames := frames }
  let s := if r = 0 then s
    else (s.modDen d fun n => { n with shadow := .failed }).raise .denLoadFail (ofFields [(0, d), (8, r)])
  s.updBadger

/-- Frames written by a load that runs or ended early: how far it came is not stated (a free value up to 3,072;
notes/assumptions/83.md). -/
def State.partFrames (s : State) : BitVec 12 := BitVec.ofNat 12 (s.free.toNat % 3073)

/-- A write to `DEN_LOAD_CMD` (R146, R147, R175). A Badger in that shadow's frames leaves the rest of the segment (chapter 6,
corner). -/
def State.loadCmd (s : State) (v : Word) : State :=
  let d := field v 0 6
  if v.getLsbD 10 then
    if s.den.loadBusy then
      let k := s.partFrames
      let s := s.useFree
      let d := s.den.loadDen.toNat
      (s.writePart d (!(s.denAt d).active) k.toNat).loadEnds 10 0 k
    else s
  else if v.getLsbD 8 then
    if 48 ≤ d then
      (s.modDenBlk fun b => { b with loadResult := 4 }).raise .denLoadFail (ofFields [(0, d), (8, 4)])
    else if (s.denAt d).isStatic then s.modDenBlk fun b => { b with loadResult := 1 }
    else if s.den.loadBusy || (s.denAt d).draining || s.bdg.rlBusy || s.bdg.rlPend != 0 then
      s.modDenBlk fun b => { b with loadResult := 2 }
    else
      let s := s.modDenBlk fun b =>
        { b with loadDen := BitVec.ofNat 6 d, loadBusy := true, loadResult := 0, loadErr := 0, loadFrames := 0
                 readback := v.getLsbD 9, curSrc := b.loadSrc, curLen := b.loadLen, loadAt := s.now }
      let s := if s.bdg.position.toNat % 147456 / 3072 = d ∧ s.bdg.segPlane ≠ (s.denAt d).active then
          s.modBdg fun b => { b with visiting := false } else s
      (s.modDen d fun n => { n with shadow := .loading }).updBadger
  else s

/-! ## Registers -/

/-- The code of a shadow's state (Table 5.5). -/
def Shadow.code : Shadow → Nat | .empty => 0 | .loading => 1 | .ready => 2 | .failed => 3

/-- The 48 dens' DEN_STATIC bits. -/
def State.staticMask (s : State) : Nat := (List.range 48).foldl (fun a d => if (s.denAt d).isStatic then a + 2 ^ d else a) 0

/-- A DEN register at an offset of its block (Tables 5.4 to 5.6). -/
def State.denRead (s : State) (o : Nat) : Option Word :=
  let b := s.den
  if o = 0 then some (BitVec.ofNat 32 s.staticMask)
  else if o = 4 then some (BitVec.ofNat 32 (s.staticMask / 2 ^ 32))
  else if o = 0x10 then some (BitVec.ofNat 32 b.loadSrc.toNat)
  else if o = 0x14 then some (BitVec.ofNat 32 (b.loadSrc.toNat / 2 ^ 32))
  else if o = 0x18 then some b.loadLen
  else if o = 0x1C then some 0
  else if o = 0x20 then
    some (ofFields [(0, b.loadDen.toNat), (6, b.loadBusy.toNat), (8, b.loadResult.toNat), (12, b.loadErr.toNat),
      (16, (if b.loadBusy then s.partFrames else b.loadFrames).toNat)])
  else if 0x1000 ≤ o ∧ o < 0x1C00 then
    let n := s.denAt ((o - 0x1000) / 0x40)
    match o % 0x40 with
    | 0 => some n.ctrl
    | 4 => some (ofFields [(0, n.active.toNat), (1, n.shadow.code), (3, n.isolated.toNat), (4, n.draining.toNat),
        (5, n.isStatic.toNat), (6, n.lastAbort.toNat), (8, n.activeId.toNat), (16, n.shadowId.toNat), (24, n.activeEmpty.toNat)])
    | 8 => some (ofFields [(0, n.outCount), (16, n.inCount)])
    | 0xC => some (ofFields [(0, n.drainLimit.toNat)])
    | 0x10 => some (ofFields [(0, n.rspLimit.toNat)])
    | 0x14 => some n.swapCount
    | 0x18 => some (ofFields [(0, n.forceCount.toNat), (16, n.goneCount.toNat)])
    | 0x1C => some (BitVec.ofNat 32 n.src.toNat)
    | 0x20 => some (BitVec.ofNat 32 (n.src.toNat / 2 ^ 32))
    | _ => none
  else none

/-- What a read of an RC register clears (Table 5.4). -/
def State.denClear (s : State) (o : Nat) : State :=
  if 0x1000 ≤ o ∧ o < 0x1C00 then
    s.modDen ((o - 0x1000) / 0x40) fun n =>
      if o % 0x40 = 0x14 then { n with swapCount := 0 }
      else if o % 0x40 = 0x18 then { n with forceCount := 0, goneCount := 0 } else n
  else s

/-- A write to `DEN_CTRL_d` (R11, R153): ISOLATE = 0 is ignored while the active plane is empty. -/
def State.denCtrlWrite (s : State) (d : Nat) (v : Word) : State :=
  let v := ofFields [(0, field v 0 1)]
  if v = 0 ∧ (s.denAt d).activeEmpty then s
  else s.modDen d fun n => { n with ctrl := v, ctrlQ := n.ctrlQ ++ [{ time := s.now, val := v }] }

/-- Put a value into bits 31:0 or 47:32 of a 48-bit address. -/
def setLo (a : Addr) (v : Word) : Addr := BitVec.ofNat 48 (a.toNat / 2 ^ 32 * 2 ^ 32 + v.toNat)
def setHi (a : Addr) (v : Word) : Addr := BitVec.ofNat 48 (field v 0 16 * 2 ^ 32 + field a 0 32)

/-- A write to a DEN register (Table 5.4). -/
def State.denWrite (s : State) (o : Nat) (v : Word) : Option State :=
  if (s.denRead o).isNone then none
  else if o = 0x10 then some (s.modDenBlk fun b => { b with loadSrc := setLo b.loadSrc (v &&& 0xFFFFFFC0) })
  else if o = 0x14 then some (s.modDenBlk fun b => { b with loadSrc := setHi b.loadSrc v })
  else if o = 0x18 then some (s.modDenBlk fun b => { b with loadLen := v })
  else if o = 0x1C then some (s.loadCmd v)
  else if 0x1000 ≤ o then
    let d := (o - 0x1000) / 0x40
    if o % 0x40 = 0 then some (s.denCtrlWrite d v)
    else some (s.modDen d fun n =>
      if o % 0x40 = 0xC then { n with drainLimit := BitVec.ofNat 24 v.toNat }
      else if o % 0x40 = 0x10 then { n with rspLimit := BitVec.ofNat 24 v.toNat } else n)
  else some s

/-! ## Commands -/

/-- DEN_LOAD_START (R146). -/
def execDenLoadStart (m : MasterId) (val : Word) (s : State) : Host.Outcome State Fault Refusal :=
  .next (s.regWrite m 0x40001C fun s => s.loadCmd ((val ||| 0x100) &&& 0xFFFFFBFF))

/-- DEN_LOAD_ABORT (R146). -/
def execDenLoadAbort (m : MasterId) (val : Word) (s : State) : Host.Outcome State Fault Refusal :=
  .next (s.regWrite m 0x40001C fun s => s.loadCmd (val ||| 0x400))

/-- DEN_OUTBOUND_REQUEST (R141, R144, R148): while the gate is closed or cannot reserve the response, the den is
back-pressured and nothing happens. -/
def execDenOutboundRequest (den : Fin 48) (p : Packet) (s : State) : Host.Outcome State Fault Refusal :=
  .next (s.whenOn fun s =>
    let n := s.denAt den
    let p := { p with hdr := { p.hdr with src := BitVec.ofNat 6 (16 + den.val), srcDev := s.tbs.devNum } }
    let t := p.hdr.tag.toNat
    if n.isolated || n.freeze.isSome || n.draining || 128 < n.reservedFlits + rspFlits p then s
    else if s.tagBusy p.hdr.src p.hdr.tag then s.answer p.hdr.src .busy 0
    else
      let s := s.inject p
      if s.tagBusy p.hdr.src p.hdr.tag then
        s.modDen den fun n =>
          { n with outTags := if p.hdr.isPush then n.outTags else setBit n.outTags t true
                   pushTags := if p.hdr.isPush then setBit n.pushTags t true else n.pushTags
                   reserved := n.reserved.set 0 t (rspFlits p) }
      else s)

/-- A request waits at its unit no longer. -/
def State.takeTarget (s : State) (p : Packet) : State :=
  s.modVnx fun v => { v with atTarget := removeFirst (fun q => sameReq q.pkt p) v.atTarget }

/-- Writes into the Burrow and the den windows are refused until release stage 2, but to Brock-A (R91, R210). -/
def State.writeBlocked (s : State) (p : Packet) : Bool :=
  s.pwr.blocked && (p.hdr.isWrite || p.hdr.isAtomic) && !(p.hdr.src == 0 && p.hdr.srcDev == s.tbs.devNum)

/-- DEN_INBOUND_REQUEST (R91, R141, R148, R153): refused, answered DEN_GONE, held, back-pressured, or presented. -/
def execDenInboundRequest (den : Fin 48) (p : Packet) (s : State) : Host.Outcome State Fault Refusal :=
  .next (s.whenOn fun s =>
    let n := s.denAt den
    if s.writeBlocked p then (s.takeTarget p).respond p .busy []
    else if n.isolated then (s.takeTarget p).respond p .denGone []
    else if n.freeze.isSome || n.draining then (s.takeTarget p).modDen den fun n => { n with held := n.held ++ [p] }
    else
      let r := s.reach .fab
      if !r.2 || 32 ≤ n.inbound.length then r.1
      else (r.1.takeTarget p).modDen den fun n => { n with inbound := n.inbound ++ [InReq.of p s.now] })

/-- Requests still held once the gate is open again follow as the den has room for them (R141, R149, R150). -/
def State.presentMore (s : State) (d : Nat) : State :=
  if (s.denAt d).closed || (s.denAt d).draining then s else s.presentHeld d

/-- DEN_INBOUND_RESPONSE (R143, R144): returned, or discarded and counted when the gate has answered already. -/
def execDenInboundResponse (den : Fin 48) (p : Packet) (err : Err) (data : List Byte) (s : State) : Host.Outcome State Fault Refusal :=
  .next (s.whenOn fun s =>
    let n := s.denAt den
    let key := (p.hdr.srcDev, p.hdr.src, p.hdr.tag)
    if n.isolated || n.freeze.isSome then s
    else match n.inbound.find? fun r => sameReq r.pkt p with
      | some r =>
        ((s.modDen den fun n => { n with inbound := removeFirst (fun r => sameReq r.pkt p) n.inbound }).presentMore den).respond r.pkt err data
      | none =>
        if n.gone.contains key then
          s.modDen den fun n => { n with gone := removeFirst (fun k => k == key) n.gone, goneCount := satInc n.goneCount }
        else s)

/-- DEN_RSP_TIMEOUT (R143). -/
def execDenRspTimeout (den : Fin 48) (p : Packet) (s : State) : Host.Outcome State Fault Refusal :=
  .next (let n := s.denAt den
    match n.inbound.find? fun r => sameReq r.pkt p with
    | some r =>
      if n.rspLimit = 0 then s
      else
        let s := s.advanceTo (r.time + n.rspLimit.toNat)
        let s := s.modDen den fun n =>
          { n with inbound := removeFirst (fun r => sameReq r.pkt p) n.inbound
                   gone := n.gone ++ [(p.hdr.srcDev, p.hdr.src, p.hdr.tag)] }
        ((s.presentMore den).respond r.pkt .denGone []).raise .denRspTimeout (ofFields [(0, den.val), (8, p.hdr.src.toNat)])
    | none => s)

/-- DRAIN_WINDOW_OPEN (R148). -/
def execDrainWindowOpen (den : Fin 48) (s : State) : Host.Outcome State Fault Refusal :=
  .next (match s.drainEdge den with
    | none => s
    | some t => (s.advance (s.cyclesTo (256 * (t - (s.denAt den).drainLimit.toNat)))).openDrain den)

/-- FREEZE_PLANE_ACTIVE (R150): +40 ns. Under den reset, registers take INIT and wire registers 0. -/
def execFreezePlaneActive (den : Fin 48) (s : State) : Host.Outcome State Fault Refusal :=
  .next (match (s.denAt den).freeze with
    | some (.switching, t) =>
      ((s.advanceTo (t + 40)).modDen den fun n =>
        { (if n.freezeSwap then n.exchange else n) with freeze := some (.planeActive, t), freezeSwap := false }).modFab (Fab.denInit den)
    | _ => s)

/-- FREEZE_RESET_RELEASE (R150, R154): +56 ns; a den that stays isolated keeps its reset. -/
def execFreezeResetRelease (den : Fin 48) (s : State) : Host.Outcome State Fault Refusal :=
  .next (match (s.denAt den).freeze with
    | some (.planeActive, t) =>
      (s.advanceTo (t + 56)).modDen den fun n =>
        { n with freeze := some (.released, t), inReset := if n.freezeEnds then false else n.inReset }
    | _ => s)

/-- FREEZE_END (R150, R154, R174, R377): +64 ns. After a swap, DG_PLANE shows the new plane and DG_EDGE goes to it. -/
def execFreezeEnd (den : Fin 48) (s : State) : Host.Outcome State Fault Refusal :=
  .next (match (s.denAt den).freeze with
    | some (.released, t) =>
      let n := s.denAt den
      let s := (s.advanceTo (t + 64)).modDen den fun n =>
        { n with freeze := none, isolated := n.isolated && !n.freezeEnds, reloadEnd := false, freezeEnds := true
                 iso := if n.freezeEnds then none else n.iso, showPlane := n.active, swapping := false
                 edgeAt := if n.swapping then some s.now else n.edgeAt }
      let s := if n.freezeEnds then s.presentHeld den else s.dropHeld den
      s.raiseIf n.reloadEnd .bdgReloadDone (BitVec.ofNat 32 den)
    | _ => s)

end Sys2Proof.Machine
end

