-- ==== Sys2Proof/Machine/Badger.lean ====
section
/-! DEFINITION. Configuration memory, the Badger, the lap watch, reloads, flash re-fetch and the leaky buckets (chapter 6,
R222, R223): shared operations, the BDG and CFG registers and the commands of this family. -/

namespace Sys2Proof

/-- The address of a bucket configuration register. -/
def BucketReg.addr : BucketReg → Addr
  | .burrow => 0x703100 | .sett => 0x703300 | .cram => 0x500044 | .ddr c => BitVec.ofNat 48 (0x80101C + 0x100 * c.val)

end Sys2Proof

namespace Sys2Proof.Machine

/-! ## The lap (R161 to R166) -/

/-- Den and frame of a lap position. -/
def posDen (p : Nat) : Nat := p % 147456 / 3072
def posFrame (p : Nat) : Nat := p % 3072

/-- A lap ends at local time t: its duration is recorded, and the next begins; its first frame is due when the last frame's
start calls for it (R161, R163, R179). -/
def State.endLap (s : State) (t : Nat) : State :=
  let us := BitVec.ofNat 32 ((t - s.bdg.lapAt) / 1000)
  let due := s.bdg.nextDue
  let s := s.modBdg fun b =>
    { b with lapCount := b.lapCount + 1, lapLast := us, lapMax := if b.lapMax.toNat < us.toNat then us else b.lapMax
             outcomes := b.outcomes <<< 1 }
  (s.startLap.modBdg fun b => { b with lapAt := t, nextDue := due }).updBadger

/-- The segment at the lap position goes on: it is visited, and its plane is active or still READY (R161; chapter 6, corner). -/
def State.segmentOn (s : State) : Bool :=
  let d := posDen s.bdg.position.toNat
  s.bdg.visiting && (s.bdg.segPlane == (s.denAt d).active || s.shadowReady d)

/-- Move past segments that are not visited, at no cost; past the last position the lap ends, at local time t. At the start
of a segment the physical plane is chosen, and a shadow is visited if it is READY (R161). -/
def State.settle (t : Nat) : Nat → State → State
  | 0, s => s
  | k + 1, s =>
    let p := s.bdg.position.toNat
    if 294912 ≤ p then State.settle t k (s.endLap t)
    else
      let d := posDen p
      let s := if posFrame p = 0 ∧ s.bdg.word = 0 then
          s.modBdg fun b =>
            { b with segPlane := (s.denAt d).active != decide (147456 ≤ p), visiting := decide (p < 147456) || s.shadowReady d }
        else s
      if s.segmentOn then s
      else State.settle t k (s.modBdg fun b => { b with position := BitVec.ofNat 19 ((p / 3072 + 1) * 3072), word := 0 })

/-! ## Errors (R167 to R173) -/

/-- The detail of R173. -/
def ueDetail (d : Nat) (plane : Bool) (f w act : Nat) (mapBad : Bool) : Word :=
  ofFields [(0, d), (6, plane.toNat), (7, f), (19, w), (25, act), (27, mapBad.toNat)]

/-- Corrections add to the CRAM bucket (R168). -/
def State.cramBucket (s : State) (n : Nat) : State :=
  let r := bucketAdd s.bdg.bucket s.bdg.thresh n
  (s.modBdg fun b => { b with bucket := r.1 }).raiseIf r.2 .bdgCeBurst 0

/-- An essential uncorrectable word: report, Ledger record and the den's policy (R170, R172). An isolation that an earlier
word has called for keeps its time. -/
def State.essential (s : State) (d : Nat) (plane : Bool) (f w : Nat) (mapBad : Bool) : State :=
  let pol := (s.bdg.policy.getD d 0).toNat
  let det := ueDetail d plane f w pol mapBad
  let s := (s.raise .bdgUeEssential det).ledgerCopy (.cramUe det)
  let iso (reload : Bool) : State := s.modDen d fun n =>
    { n with badgerIso := some (match n.badgerIso with | some (t, r) => (t, r || reload) | none => (s.now + 40, reload)) }
  match pol with
  | 1 => iso false
  | 2 => iso true
  | 3 => s.stopFrom 4
  | _ => s

/-- An uncorrectable word (R170, R171). -/
def State.uncorrectable (s : State) (d : Nat) (plane : Bool) (f w : Nat) (mapBad : Bool) : State :=
  let a := planeBase d plane + f
  if s.bdg.bad.contains (a, w) then s.modBdg fun b => { b with ueRepeat := satInc b.ueRepeat }
  else
    let s := s.modBdg fun b =>
      { b with ueCount := satInc b.ueCount, bad := if b.bad.length < 16 then b.bad ++ [(a, w)] else b.bad }
    if plane ≠ (s.denAt d).active then
      (s.modDen d fun n => { n with shadow := .failed }).raise .bdgUeShadow (ueDetail d plane f w 0 mapBad)
    else if mapBad || (s.bdg.map.getD a 0).getLsbD w then s.essential d plane f w mapBad
    else s.raise .bdgUeBenign (ueDetail d plane f w 0 mapBad)

/-- What SECDED finds in a word with these bits flipped: nothing, one bit to correct, or an uncorrectable error. Three or more
can be taken for any of these (R157), by a free value. -/
inductive WordRead where
  | good | single | double
deriving DecidableEq, Repr
def State.wordRead (s : State) (flips : BitVec 72) : WordRead :=
  match popCount flips.toNat 72 with
  | 0 => .good
  | 1 => .single
  | 2 => .double
  | _ => if s.free.getLsbD 0 then .double else if s.free.getLsbD 1 then .single else .good

/-- The Badger reads one word in one CFG cycle, and takes two more to correct it (R162, R167, R169, R170): a single-bit error is corrected, and only the bits in error change. Where
three or more bits are taken for a single one, the word that results is a free value. -/
def State.scrubWord (s : State) (d : Nat) (plane : Bool) (f w : Nat) (sticks : Bool) : State :=
  let s := s.advance 2
  let i := 64 * (planeBase d plane + f) + w
  let flips := s.bdg.flips.getD i 0
  let left : BitVec 72 := if popCount flips.toNat 72 ≤ 1 then 0 else flips ^^^ BitVec.ofNat 72 (2 ^ (s.free.toNat / 4 % 72))
  let r := s.wordRead flips
  let s := if 2 < popCount flips.toNat 72 then s.useFree else s
  match r with
  | .good => s
  | .double => s.uncorrectable d plane f w s.bdg.mapBad
  | .single =>
    let s := s.advance 4
    if sticks then s.uncorrectable d plane f w s.bdg.mapBad
    else (s.modBdg fun b => { b with flips := b.flips.set 0 i left, ceCount := satInc b.ceCount }).cramBucket 1

/-- The frame at the lap position starts: its map word is read, with the bits that have flipped in it, and its parity checked
(R160). -/
def State.startFrame (s : State) (mapFlips : BitVec 72) : State :=
  let p := s.bdg.position.toNat
  let d := posDen p
  let f := posFrame p
  let plane := s.bdg.segPlane
  let m := s.bdg.map.getD (planeBase d plane + f) 0 ^^^ mapFlips
  let s := s.modBdg fun b =>
    { b with map := b.map.set 0 (planeBase d plane + f) m, mapBad := !mapGood m, mapPerr := if mapGood m then b.mapPerr else satInc b.mapPerr }
  s.raiseIf (!mapGood m) .bdgMapParity (ofFields [(0, d), (6, plane.toNat), (7, f)])

/-- The Badger reads words of the frame, up to n of those that are left, with what has struck the frame since its last visit
(R160, R162, R165). At the frame's end the next is due INTERVAL cycles after this one's start, and not before now (R163). -/
def State.scrubFrame (s : State) (n : Nat) (mapFlips : BitVec 72) (upsets : List Upset) : State :=
  let p := s.bdg.position.toNat
  let d := posDen p
  let f := posFrame p
  let plane := s.bdg.segPlane
  let w0 := s.bdg.word.toNat
  let base := 64 * (planeBase d plane + f)
  let s := if w0 = 0 then s.startFrame mapFlips else s
  let s := s.modBdg fun b => { b with flips := upsets.foldl (fun t u => t.mod 0 (base + u.word.val) (· ^^^ u.bits)) b.flips }
  let k := min n (64 - w0)
  let start := s.now
  let s := (List.range k).foldl (fun s j =>
    s.scrubWord d plane f (w0 + j) (upsets.any fun u => u.word.val == w0 + j && u.sticks)) s
  if w0 + k < 64 then
    s.modBdg fun b => { b with word := BitVec.ofNat 6 (w0 + k), nextDue := if w0 = 0 then start + 2 * b.interval.toNat else b.nextDue }
  else
    s.modBdg fun b =>
      { b with
        position := BitVec.ofNat 19 (p + 1), word := 0
        nextDue := if b.idleMode then s.now else max s.now (if w0 = 0 then start + 2 * b.interval.toNat else b.nextDue) }

/-- The loader or a re-fetch uses the CRAM, and the Badger waits (R162). -/
def State.cramTaken (s : State) : Bool := s.den.loadBusy || s.bdg.rlBusy || s.bdg.rfBusy

/-! ## Leaky buckets (R222, R223) -/

/-- The next tick of a bucket whose timer started at `t0` and whose last tick was at `last`: one every LEAK ms. -/
def leakDue (t0 last leak : Nat) : Nat := max t0 last + leak * 1000000

/-- A bank bucket takes n corrections (R206, R223). -/
def State.bankBucket (s : State) (b n : Nat) : State :=
  let r := bucketAdd (s.bankAt b).bucket s.brw.thresh n
  (s.modBank b fun k => { k with bucket := r.1 }).raiseIf r.2 .brwCeBurst (BitVec.ofNat 32 b)

/-- A den's Sett bucket takes n corrections. -/
def State.settBucket (s : State) (d n : Nat) : State :=
  let r := bucketAdd (s.brw.settBucket.getD d 0) s.brw.settThresh n
  (s.modBrw fun w => { w with settBucket := w.settBucket.set 0 d r.1 }).raiseIf r.2 .brwSettCeBurst (BitVec.ofNat 32 d)

/-- A DDR channel's bucket takes n corrections (R229). -/
def State.chBucket (s : State) (c n : Nat) : State :=
  let r := bucketAdd (s.chAt c).bucket (s.chAt c).thresh n
  (s.modCh c fun k => { k with bucket := r.1 }).raiseIf r.2 .memCeBurst (BitVec.ofNat 32 c)

/-- A write of a bucket configuration register: THRESH and LEAK, the timer restarts, and the threshold is checked at
once (R222, R223). -/
def State.bucketCfg (s : State) (r : BucketReg) (v : Word) : State :=
  let th := BitVec.ofNat 16 v.toNat
  let lk := BitVec.ofNat 16 (field v 16 16)
  match r with
  | .burrow => forN 32 (fun b s => s.bankBucket b 0) (s.modBrw fun w => { w with thresh := th, leak := lk, leakAt := s.now })
  | .sett => forN 48 (fun d s => s.settBucket d 0) (s.modBrw fun w => { w with settThresh := th, settLeak := lk, settLeakAt := s.now })
  | .cram => (s.modBdg fun b => { b with thresh := th, leak := lk, leakAt := s.now }).cramBucket 0
  | .ddr c => (s.modCh c fun k => { k with thresh := th, leak := lk, leakAt := s.now }).chBucket c 0

/-! ## Reload and re-fetch -/

/-- A reload of den d ends with a result (R174). -/
def State.reloadEnds (s : State) (d r : Nat) : State :=
  let s := s.modBdg fun b => { b with rlBusy := false, rlDen := BitVec.ofNat 6 d, rlResult := BitVec.ofNat 4 r }
  let s := if r = 0 then s.modDen d fun n => { n with endIso := some (s.now + 40) }
    else s.raise .bdgReloadFail (ofFields [(0, d), (8, r)])
  s.updBadger

/-- A write to `CFG_REFETCH` (R176, R177); a den or frame that does not exist is refused as NOT_FLASH
(notes/assumptions/45.md). -/
def State.refetchCmd (s : State) (v : Word) : State :=
  if v.getLsbD 31 then
    let d := field v 0 6
    let f := field v 6 12
    let why := if !s.img.refetchEn then 1 else if s.img.encrypted then 2
      else if 48 ≤ d || 3072 ≤ f || (s.denAt d).changed then 3 else if s.bdg.rfBusy then 6 else 0
    if why ≠ 0 then s.modBdg fun b => { b with rfResult := BitVec.ofNat 3 why }
    else s.modBdg fun b => { b with rfBusy := true, rfFrame := planeBase d (s.denAt d).active + f }
  else s

/-! ## Registers -/

/-- The code of `BDG_STATUS`.STATE (Table 6.3). -/
def BdgState.code : BdgState → Nat | .stopped => 0 | .running => 1 | .paused => 2 | .failed => 3

/-- The index of the reload source `BDG_SRC_SEL` selects. -/
def Bdg.selected (b : Bdg) : Nat := 2 * field b.srcSel 0 6 + field b.srcSel 8 1

/-- A BDG register at an offset of its block (Tables 6.2, 6.3). -/
def State.bdgRead (s : State) (o : Nat) : Option Word :=
  let b := s.bdg
  let src := b.sources.getD b.selected (false, 0)
  if o = 0 then some (ofFields [(0, b.idleMode.toNat), (1, b.pause.toNat), (2, b.failStop.toNat)])
  else if o = 4 then
    some (ofFields [(0, b.state.code), (2, b.unscrubbed.toNat), (3, (decide (147456 ≤ b.position.toNat)).toNat)])
  else if o = 8 then some (ofFields [(0, b.position.toNat)])
  else if o = 0xC then some (ofFields [(0, b.lapTarget.toNat)])
  else if o = 0x10 then some (ofFields [(0, b.interval.toNat)])
  else if o = 0x14 then some b.lapLast
  else if o = 0x18 then some b.lapMax
  else if o = 0x1C then some b.lapCount
  else if o = 0x20 then some b.ceCount
  else if o = 0x24 then some b.ueCount
  else if o = 0x28 then some b.ueRepeat
  else if o = 0x2C then some b.tmrFix
  else if o = 0x30 then some (ofFields [(0, b.restarts.toNat), (16, b.outcomes.toNat)])
  else if o = 0x34 then some b.mapPerr
  else if o = 0x38 then some (ofFields [(0, b.bad.length)])
  else if o = 0x40 then some (ofFields [(0, b.bucket.toNat)])
  else if o = 0x44 then some (ofFields [(0, b.thresh.toNat), (16, b.leak.toNat)])
  else if o = 0x80 then some (ofFields [(0, b.srcSel.toNat)])
  else if o = 0x84 then some (BitVec.ofNat 32 src.2.toNat)
  else if o = 0x88 then some (ofFields [(0, src.2.toNat / 2 ^ 32), (31, src.1.toNat)])
  else if o = 0x8C then
    some (ofFields [(0, b.rlDen.toNat), (6, b.rlBusy.toNat), (8, b.rlResult.toNat), (12, popCount b.rlPend.toNat 48)])
  else if 0x100 ≤ o ∧ o < 0x1C0 then some (ofFields [(0, (b.policy.getD ((o - 0x100) / 4) 0).toNat)])
  else none

/-- What a read of an RC register clears (Table 6.2). -/
def State.bdgClear (s : State) (o : Nat) : State :=
  s.modBdg fun b =>
    if o = 0x18 then { b with lapMax := 0 } else if o = 0x20 then { b with ceCount := 0 }
    else if o = 0x24 then { b with ueCount := 0 } else if o = 0x28 then { b with ueRepeat := 0 }
    else if o = 0x2C then { b with tmrFix := 0 } else if o = 0x30 then { b with restarts := 0, outcomes := 0 }
    else if o = 0x34 then { b with mapPerr := 0 } else b

/-- A write to a BDG register (Table 6.2, R164, R172, R174). -/
def State.bdgWrite (s : State) (o : Nat) (v : Word) : Option State :=
  if (s.bdgRead o).isNone then none
  else if o = 0 then some (s.modBdg fun b => { b with
      idleMode := v.getLsbD 0, pause := v.getLsbD 1, nextDue := if v.getLsbD 0 then min b.nextDue s.now else b.nextDue }).updBadger
  else if o = 0xC then
    some (if 40000 ≤ field v 0 24 ∧ field v 0 24 ≤ 10000000 then
        s.modBdg fun b => { b with lapTarget := BitVec.ofNat 24 v.toNat } else s)
  else if o = 0x44 then some (s.bucketCfg .cram v)
  else if o = 0x80 then some (s.modBdg fun b => { b with srcSel := BitVec.ofNat 9 (v &&& 0x13F).toNat })
  else if o = 0x84 then
    some (s.modBdg fun b => { b with sources := b.sources.mod (false, 0) b.selected fun x => (x.1, setLo x.2 (v &&& 0xFFFFFFC0)) })
  else if o = 0x88 then
    some (s.modBdg fun b => { b with sources := b.sources.mod (false, 0) b.selected fun x => (v.getLsbD 31, setHi x.2 v) })
  else if 0x100 ≤ o then
    let d := (o - 0x100) / 4
    some (if field v 0 2 = 2 ∧ (s.denAt d).isStatic then s
      else s.modBdg fun b => { b with policy := b.policy.set 0 d (BitVec.ofNat 2 v.toNat) })
  else some s

/-- A CFG register at an offset of its block (Table 6.2). -/
def State.cfgRead (s : State) (o : Nat) : Option Word :=
  if o = 0x100 then some 0
  else if o = 0x104 then some (ofFields [(0, s.bdg.rfBusy.toNat), (4, s.bdg.rfResult.toNat)])
  else none

/-- A write to a CFG register. -/
def State.cfgWrite (s : State) (o : Nat) (v : Word) : Option State :=
  if (s.cfgRead o).isNone then none else if o = 0x100 then some (s.refetchCmd v) else some s

/-! ## Commands -/

/-- BADGER_FRAME (R160 to R163, R165): a frame starts when due, or goes on at the word where it stopped. The Badger reads up
to `words` words before a pause, a freeze or a loader takes the CRAM. A den between its swap edge and +64 ns is left alone. -/
def execBadgerFrame (words : Nat) (mapFlips : BitVec 72) (upsets : List Upset) (s : State) : Host.Outcome State Fault Refusal :=
  .next (if s.on ∧ s.bdg.state = .running ∧ !s.cramTaken then
      let s := if s.bdg.word = 0 then s.advanceTo s.bdg.nextDue else s
      let s := State.settle s.now 100 s
      if (s.denAt (posDen s.bdg.position.toNat)).swapping then s
      else
        let s := s.scrubFrame words mapFlips upsets
        State.settle s.now 100 s
    else s)

/-- RELOAD_START (R174, R175): in den order, once the loader is free. -/
def execReloadStart (s : State) : Host.Outcome State Fault Refusal :=
  .next (if s.on && !s.den.loadBusy && !s.bdg.rlBusy then
      match (List.range 48).find? fun d => s.bdg.rlPend.getLsbD d && (s.denAt d).isolated with
      | none => s
      | some d =>
        let p := (s.denAt d).active
        let s := s.modBdg fun b => { b with rlPend := setBit b.rlPend d false }
        if (s.bdg.sources.getD (2 * d + p.toNat) (false, 0)).1 then
          (s.modBdg fun b => { b with rlBusy := true, rlDen := BitVec.ofNat 6 d, rlPlane := p, rlAt := s.now }).updBadger
        else s.reloadEnds d 8
    else s)

/-- CFG_REFETCH (R176, R177). -/
def execCfgRefetch (m : MasterId) (val : Word) (s : State) : Host.Outcome State Fault Refusal :=
  .next (s.regWrite m 0x300100 fun s => s.refetchCmd val)

/-- REFETCH_COMPLETE (R176, R177): the image CRC in the slot header is compared with the one of LOAD. -/
def execRefetchComplete (out : RefetchOutcome) (s : State) : Host.Outcome State Fault Refusal :=
  .next (if s.on && s.bdg.rfBusy then
      let a := s.bdg.rfFrame
      match out with
      | .read crc words =>
        if crc ≠ s.img.imageCrc then s.modBdg fun b => { b with rfBusy := false, rfResult := 4 }
        else s.modBdg fun b =>
          { b with rfBusy := false, rfResult := 0, cram := b.cram.fill 0 (64 * a) 64 fun i => words.getD i 0
                   flips := b.flips.fill 0 (64 * a) 64 fun _ => 0, bad := b.bad.filter fun x => x.1 != a }
      | .flash => s.modBdg fun b => { b with rfBusy := false, rfResult := 5 }
    else s)

/-- LAP_WATCH_EXPIRE (R179): the counted time of a lap reaches twice the lap target. -/
def execLapWatchExpire (s : State) : Host.Outcome State Fault Refusal :=
  .next (if (s.bdg.state = .running ∨ s.bdg.state = .paused) ∧ s.bdg.exclFrom.isNone then
      let s := s.advanceTo (s.bdg.lapAt + s.bdg.excluded + 2000 * s.bdg.lapCur.toNat)
      let pos := s.bdg.position.toNat
      let s := s.modBdg fun b => { b with restarts := satInc b.restarts, outcomes := (b.outcomes <<< 1) ||| 1, bad := [] }
      let s := (s.startLap.updBadger).raise .bdgRestart (BitVec.ofNat 32 pos)
      if 3 ≤ popCount s.bdg.outcomes.toNat 10 then
        let s := s.raise .bdgFailed (BitVec.ofNat 32 s.bdg.failStop.toNat)
        if s.bdg.failStop then s.stopFrom 4 else s.modBdg fun b => { b with state := .failed, unscrubbed := true }
      else s
    else s)

/-- BUCKET_LEAK_TICK (R222, R223): the bucket's next tick comes, and its count falls by 1. -/
def execBucketLeakTick (b : BucketId) (s : State) : Host.Outcome State Fault Refusal :=
  .next (match b with
    | .burrow i =>
      if s.brw.leak = 0 then s
      else
        let t := leakDue s.brw.leakAt (s.bankAt i).tickAt s.brw.leak.toNat
        (s.advanceTo t).modBank i fun k => { k with bucket := bucketLeak k.bucket, tickAt := t }
    | .sett d =>
      if s.brw.settLeak = 0 then s
      else
        let t := leakDue s.brw.settLeakAt (s.brw.settTick.getD d 0) s.brw.settLeak.toNat
        (s.advanceTo t).modBrw fun w => { w with settBucket := w.settBucket.mod 0 d bucketLeak, settTick := w.settTick.set 0 d t }
    | .cram =>
      if s.bdg.leak = 0 then s
      else
        let t := leakDue s.bdg.leakAt s.bdg.tickAt s.bdg.leak.toNat
        (s.advanceTo t).modBdg fun x => { x with bucket := bucketLeak x.bucket, tickAt := t }
    | .ddr c =>
      if (s.chAt c).leak = 0 then s
      else
        let t := leakDue (s.chAt c).leakAt (s.chAt c).tickAt (s.chAt c).leak.toNat
        (s.advanceTo t).modCh c fun k => { k with bucket := bucketLeak k.bucket, tickAt := t })

/-- BUCKET_CFG_WRITE (R222). -/
def execBucketCfgWrite (m : MasterId) (r : BucketReg) (val : Word) (s : State) : Host.Outcome State Fault Refusal :=
  .next (s.regWrite m r.addr fun s => s.bucketCfg r val)

/-- TMR_DISAGREEMENT (R178): each copy that disagrees is rewritten and counted. -/
def execTmrDisagreement (n : Nat) (s : State) : Host.Outcome State Fault Refusal :=
  .next (s.whenOn fun s => s.modBdg fun b => { b with tmrFix := satAdd b.tmrFix n })

end Sys2Proof.Machine
end

