-- ==== Sys2Proof/Machine/Codeword.lean ====
section
/-! DEFINITION. The bits of a span codeword: header, link slot, descriptors, control messages and CRC (R258, R259, R263,
Tables 10.2 and 10.3). -/

namespace Sys2Proof

open Machine

/-- A number from fields, each placed at its lowest bit. -/
def packNat (l : List (Nat × Nat)) : Nat := l.foldl (fun a p => a + p.2 * 2 ^ p.1) 0

/-! ## Control messages (Table 10.3) -/

/-- A stamp's whole ns and its fraction, where a message carries them. -/
def stampFields (ns frac : Nat) (t : Stamp) : List (Nat × Nat) := [(ns, t.toNat / 256 % 2 ^ 64), (frac, t.toNat % 256)]
def stampAt {w : Nat} (b : BitVec w) (ns frac : Nat) : Stamp := BitVec.ofNat 72 (256 * field b ns 64 + field b frac 8)

/-- The bits of a control message. -/
def SpanMsg.pack (m : SpanMsg) : BitVec 512 :=
  match m with
  | .linkInfo i =>
    BitVec.ofNat 512 (packNat [(0, 0), (8, i.dev.toNat), (16, i.link.toNat), (20, i.width.toNat), (32, i.part.toNat), (48, i.version.toNat), (56, i.caps.toNat)])
  | .elect e => BitVec.ofNat 512 (packNat [(0, 1), (8, e.cand.toNat), (16, e.auto.toNat), (17, e.valid.toNat), (24, e.hops.toNat)])
  | .marker x =>
    BitVec.ofNat 512 (packNat ([(0, 2), (8, x.master.toNat), (16, x.hops.toNat), (24, x.skipped.toNat), (64, x.tick.toNat)] ++
      stampFields 128 192 x.edge ++ stampFields 200 264 x.tx ++ [(272, x.period.toNat), (296, x.holdLeft.toNat)]))
  | .delayReq id tx => BitVec.ofNat 512 (packNat ([(0, 3), (8, id.toNat)] ++ stampFields 200 264 tx))
  | .delayRsp id rx tx => BitVec.ofNat 512 (packNat ([(0, 4), (8, id.toNat)] ++ stampFields 128 192 rx ++ stampFields 200 264 tx))
  | .holdReq o c i => BitVec.ofNat 512 (packNat [(0, 5), (8, o.toNat), (16, c.toNat), (32, i.toNat)])
  | .notice a id (.hold e c i) =>
    BitVec.ofNat 512 (packNat [(0, 6), (8, a.toNat), (16, id.toNat), (32, 0), (64, e.toNat), (128, c.toNat), (144, i.toNat)])
  | .notice a id (.period n p) =>
    BitVec.ofNat 512 (packNat [(0, 6), (8, a.toNat), (16, id.toNat), (32, 1), (64, n.toNat), (144, p.toNat)])
  | .halt o id g h => BitVec.ofNat 512 (packNat [(0, 7), (8, o.toNat), (16, id.toNat), (24, g.toNat), (32, h.toNat)])
  | .down c => BitVec.ofNat 512 (packNat [(0, 8), (8, c.toNat)])
  | .reserved b => b

/-- The control message of a slot. -/
def msgOf (b : BitVec 512) : SpanMsg :=
  let byte (o : Nat) : Byte := BitVec.ofNat 8 (field b o 8)
  let word (o : Nat) : BitVec 16 := BitVec.ofNat 16 (field b o 16)
  match field b 0 8 with
  | 0 => .linkInfo { dev := byte 8, link := BitVec.ofNat 3 (field b 16 3), width := BitVec.ofNat 2 (field b 20 2), part := word 32
                     version := byte 48, caps := BitVec.ofNat 3 (field b 56 3) }
  | 1 => .elect { cand := byte 8, auto := b.getLsbD 16, valid := b.getLsbD 17, hops := byte 24 }
  | 2 => .marker { master := byte 8, hops := byte 16, skipped := b.getLsbD 24, tick := BitVec.ofNat 48 (field b 64 48)
                   edge := stampAt b 128 192, tx := stampAt b 200 264, period := BitVec.ofNat 24 (field b 272 24), holdLeft := word 296 }
  | 3 => .delayReq (byte 8) (stampAt b 200 264)
  | 4 => .delayRsp (byte 8) (stampAt b 128 192) (stampAt b 200 264)
  | 5 => .holdReq (byte 8) (word 16) (b.getLsbD 32)
  | 6 =>
    match field b 32 2 with
    | 0 => .notice (byte 8) (word 16) (.hold (BitVec.ofNat 64 (field b 64 64)) (word 128) (b.getLsbD 144))
    | 1 => .notice (byte 8) (word 16) (.period (BitVec.ofNat 48 (field b 64 48)) (BitVec.ofNat 24 (field b 144 24)))
    | _ => .reserved b
  | 7 => .halt (byte 8) (byte 16) (byte 24) (b.getLsbD 32)
  | 8 => .down (BitVec.ofNat 4 (field b 8 4))
  | _ => .reserved b

/-! ## Slots (R259) -/

/-- A class's code in a descriptor. -/
def FlitClass.code : FlitClass → Nat | .req => 0 | .rsp => 1 | .guar => 2
def classOf (n : Nat) : FlitClass := match n with | 0 => .req | 1 => .rsp | _ => .guar

/-- An item's descriptor and slot. -/
def SeqItem.slot : SeqItem → Nat × BitVec 512
  | .flit f => (1 + 4 * f.cls.code + 16 * f.last.toNat + 32 * f.epoch.toNat, f.bits)
  | .ctl m => (2, m.pack)

/-- The slots of a codeword, from slot 1 on; a timing message travels in slot 1. -/
def Codeword.slots (c : Codeword) : List (Nat × BitVec 512) := (c.timing.map fun m => (3, m.pack)).toList ++ c.items.map SeqItem.slot

/-- The sequenced item that a slot carries; an IDLE or TIMING CONTROL slot carries none. -/
def itemOf (desc : Nat) (b : BitVec 512) : Option SeqItem :=
  match desc % 4 with
  | 1 => some (.flit { cls := classOf (desc / 4 % 4), last := desc.testBit 4, epoch := desc.testBit 5, bits := b })
  | 2 => some (.ctl (msgOf b))
  | _ => none

/-! ## The payload (R258, Table 10.2) -/

/-- The bits a CRC covers: the header, the link slot but for its CRC field, and slots 1 to 9. -/
def Codeword.covered (c : Codeword) : Nat :=
  let x := c.slots.zipIdx
  c.num.toNat +
    2 ^ 20 * packNat ([(0, c.seq.toNat), (88, c.ack.toNat), (104, c.nak.toNat), (105, c.crReq.toNat), (113, c.crRsp.toNat), (121, c.crGuar.toNat)] ++
      x.map fun d => (16 + 8 * d.2, d.1.1)) +
    2 ^ 500 * packNat (x.map fun d => (512 * d.2, d.1.2.toNat))

/-- CRC-32 over the low n bits of a number, the lowest first. -/
def crc32Bits (x n : Nat) : Nat := ((List.range n).foldl (fun c i => crc32Bit 1 (c ^^^ bits x i 1)) 0xFFFFFFFF) ^^^ 0xFFFFFFFF

/-- The bits under the CRC of a payload. -/
def coveredBits (p : BitVec 5140) : Nat := field p 0 500 + 2 ^ 500 * (p.toNat / 2 ^ 532)

/-- The 5,140 bits of a codeword. -/
def Codeword.payload (c : Codeword) : BitVec 5140 :=
  let x := c.covered
  BitVec.ofNat 5140 (x % 2 ^ 500 + 2 ^ 500 * crc32Bits x 5108 + 2 ^ 532 * (x / 2 ^ 500))

/-- The CRC of a payload matches. -/
def crcMatches (p : BitVec 5140) : Bool := crc32Bits (coveredBits p) 5108 == field p 500 32

/-- What a payload says: a TIMING CONTROL item counts in slot 1 only. -/
def codewordOf (p : BitVec 5140) : Codeword :=
  let desc (i : Nat) : Nat := field p (28 + 8 * i) 8
  let slot (i : Nat) : BitVec 512 := BitVec.ofNat 512 (field p (20 + 512 * i) 512)
  { num := BitVec.ofNat 12 (field p 0 12), seq := BitVec.ofNat 16 (field p 20 16)
    items := (List.range 9).filterMap fun i => itemOf (desc (i + 1)) (slot (i + 1))
    timing := if desc 1 % 4 = 3 then some (msgOf (slot 1)) else none
    ack := BitVec.ofNat 16 (field p 108 16), nak := p.getLsbD 124, crReq := BitVec.ofNat 8 (field p 125 8)
    crRsp := BitVec.ofNat 8 (field p 133 8), crGuar := BitVec.ofNat 8 (field p 141 8) }

end Sys2Proof
end

