-- ==== Sys2Proof/Machine/Lanes.lean ====
section
/-! DEFINITION. Lanes and quads: transmit taps, adaptation, training, eye scan, RAW lanes and PRBS, with the LAN registers and
the commands of this family (R246 to R253, R279), and the idle step, which clocks the fabric and its RAW lanes. -/

namespace Sys2Proof.Machine

/-! ## Equalisation and training (R249 to R252) -/

/-- Magnitude of an n-bit two's complement field. -/
def mag (v n : Nat) : Nat := if v < 2 ^ (n - 1) then v else 2 ^ n - v

/-- The taps keep within full swing (R249). -/
def firOk (v : Word) : Bool :=
  decide (mag (field v 0 6) 6 + mag (field v 6 6) 6 + field v 12 7 + mag (field v 19 6) 6 + mag (field v 25 6) 6 ≤ 64)

/-- A write to `LAN_TXFIR_n`; FIR_REJECT stays until a write is taken (notes/assumptions/51.md). -/
def State.firWrite (s : State) (n : Nat) (v : Word) : State :=
  s.modLane n fun l => if firOk v then { l with fir := v, firReject := false } else { l with firReject := true }

/-- What a lane has adapted to by now: while its receiver works, and unless FREEZE holds it, the CTLE peaking under CTLE_ADAPT
and the DFE weights under DFE_ADAPT are free values (R250; notes/assumptions/143.md). -/
def Lane.adapt (l : Lane) (n now : Nat) : Lane :=
  if l.freeze then l
  else
    { l with
      peaking := if l.ctleAdapt then Config.ctlePeak n now else l.peaking
      dfe := if l.dfeAdapt then (List.range 24).foldl (fun t i => t.set 0 (i + 1) (Config.dfeWeight n (i + 1) now)) {} else l.dfe }

/-- A lane as its registers show it now. -/
def State.laneNow (s : State) (n : Nat) : Lane := if s.laneOn n then (s.laneAt n).adapt n s.now else s.laneAt n

/-- A write to `LAN_RXEQ_n`: what has adapted is held from here on, or goes on adapting; a peaking that does not adapt takes
the value written (R250). -/
def State.rxeqWrite (s : State) (n : Nat) (v : Word) : State :=
  let l := s.laneNow n
  s.modLane n fun _ =>
    { l with
      peaking := if v.getLsbD 8 then l.peaking else BitVec.ofNat 5 v.toNat
      ctleAdapt := v.getLsbD 8, dfeAdapt := v.getLsbD 9, freeze := v.getLsbD 10 }

/-- A write to `LAN_EYE_CTRL_n` (R252). -/
def State.eyeWrite (s : State) (n : Nat) (v : Word) : State :=
  s.modLane n fun l =>
    if v.getLsbD 31 then (if l.eyeBusy then l else { l with eyeCtrl := v &&& 0x77FFF, eyeBusy := true, eyeDone := false })
    else { l with eyeCtrl := v &&& 0x77FFF }

/-- The taps that training leaves: within full swing, and unchanged while MANUAL is 1 (R249, R251). -/
def Lane.trainTaps (l : Lane) (n now : Nat) : Word :=
  let v := Config.trainedFir n now &&& 0x7FFFFFFF
  if l.fir.getLsbD 31 || !firOk v then l.fir else v

/-- Training of a lane has converged; a link whose lanes have all trained goes to ALIGNING, and sends codewords from there on
(R251, R256, R258). -/
def State.laneDone (s : State) (n : Nat) : State :=
  let s := s.modLane n fun l => { l with trained := true, training := none, fir := l.trainTaps n s.now }
  forN 8 (fun k s =>
    let l := s.linkAt k
    if l.state = .training ∧ l.lanes.contains n ∧ l.lanes.all fun j => (s.laneAt j).trained then
      s.modLink k fun l => { l with state := .aligning, streamAt := s.now, cwNext := 0 }
    else s) s

/-! ## RAW lanes (R253) -/

/-- The feedback taps of the PRBS patterns, in the order of R253 (PRESUMED: the polynomials of ITU-T O.150 and IEEE 802.3 that
the names stand for, notes/assumptions/143.md). -/
def prbsTaps (p : Nat) : List Nat :=
  match p with
  | 0 => [7, 6] | 1 => [9, 5] | 2 => [13, 12, 2, 1] | 3 => [15, 14] | 4 => [23, 18] | 5 => [31, 28]
  | 6 => [13, 12, 2, 1] | 7 => [31, 28] | _ => []

/-- The next bit of a pattern after the bits of a shift register, the latest in bit 0. -/
def prbsBit (taps : List Nat) (r : BitVec 31) : Bool := taps.foldl (fun a t => a != r.getLsbD (t - 1)) false

/-- n bits of a pattern, the first the least significant, and the register after them. -/
def prbsWord (taps : List Nat) : Nat → BitVec 31 → Nat × BitVec 31
  | 0, r => (0, r)
  | n + 1, r =>
    let b := prbsBit taps r
    let x := prbsWord taps n ((r <<< 1) ||| BitVec.ofNat 31 b.toNat)
    (b.toNat + 2 * x.1, x.2)

/-- The errors that n received bits show against the pattern predicted from the bits before them, and the register after. -/
def prbsErrors (taps : List Nat) (w : BitVec 256) : Nat → Nat → BitVec 31 → Nat × BitVec 31
  | 0, _, r => (0, r)
  | n + 1, i, r =>
    let b := w.getLsbD i
    let x := prbsErrors taps w n (i + 1) ((r <<< 1) ||| BitVec.ofNat 31 b.toNat)
    ((b != prbsBit taps r).toNat + x.1, x.2)

/-- PAM4 Gray coding of the pairs of bits of a word: 00, 01, 11 and 10 are the levels 0 to 3; and its inverse (R253). -/
def gray (w : BitVec 256) : BitVec 256 := w ^^^ ((w >>> 1) &&& BitVec.ofNat 256 (leNat (List.replicate 32 0x55)))

/-- The lane that RAW use j of den d configures: the dens of R253 have three quads. -/
def rawLane (d j : Nat) : Option Nat :=
  if 12 ≤ j then none else if d < 4 then some (12 * d + j) else if 44 ≤ d ∧ d < 48 then some (48 + 12 * (d - 44) + j) else none

/-- The FAB side of a lane's FIFOs on an edge of its clock: a word goes in, if there is room, and one comes out. -/
def Lane.rawFab (l : Lane) (w : BitVec 256) : Lane :=
  { l with rawTx := if l.rawTx.length < 16 then l.rawTx ++ [w] else l.rawTx, rawOut := l.rawRx.headD l.rawOut, rawRx := l.rawRx.drop 1 }

/-- The LNK side on an edge of the lane's word clock: the FIFO or the PRBS generator gives the word sent, and the word received
goes to the FIFO and the checker. Polarity and Gray coding act next to the lane. -/
def Lane.rawLnk (l : Lane) (pam4 : Bool) (width : Nat) (rx : BitVec 256) : Lane :=
  let taps := prbsTaps (field l.prbs 0 4)
  let mask := BitVec.ofNat 256 (2 ^ width - 1)
  let code (inv : Bool) (w : BitVec 256) : BitVec 256 := (if inv then ~~~ w else w) &&& mask
  let g := prbsWord taps width l.gen
  let tx := if l.prbs.getLsbD 4 then BitVec.ofNat 256 g.1 else l.rawTx.headD 0
  let got := code (l.ctrl.getLsbD 2) rx
  let got := if pam4 then gray got else got
  let e := prbsErrors taps got width 0 l.chk
  { l with
    line := if l.ctrl.getLsbD 0 then code (l.ctrl.getLsbD 1) (if pam4 then gray tx else tx) else 0
    gen := if l.prbs.getLsbD 4 then g.2 else l.gen
    rawTx := if l.prbs.getLsbD 4 then l.rawTx else l.rawTx.drop 1
    rawRx := if l.rawRx.length < 16 then l.rawRx ++ [got] else l.rawRx
    chk := if l.prbs.getLsbD 5 then e.2 else l.chk
    prbsErr := if l.prbs.getLsbD 5 then satAdd l.prbsErr e.1 else l.prbsErr }

/-- One ns of a RAW lane, whose design's signals stand in `s`. -/
def State.rawNext (s : State) (d : Nat) (u : RawUse) (n : Nat) (l : Lane) : Lane :=
  let fab := s.running .fab && s.edgeAt { den := d, column := 0, row := 0, north := false } u.clk
  let l := if fab then l.rawFab (BitVec.ofNat 256 (ofBits ((u.tx.take u.width.bits).map (s.sigIn d)))) else l
  if s.running .lnk && s.clk.good.getLsbD (16 + n / 4) && Config.rawEdge n s.now then
    l.rawLnk ((s.lan.quad.getD (n / 4) 0).getLsbD 20) u.width.bits (Config.rawWord n s.now)
  else l

/-- One ns of the RAW lanes at den d, after the fabric's. -/
def State.rawEdge (s : State) (d : Nat) (t : State) : State :=
  (s.design d).raws.foldl (fun t u =>
    match rawLane d u.1 with
    | some n => if s.quadMode (n / 4) = 3 ∧ s.laneOn n then t.modLane n (s.rawNext d u.2 n) else t
    | none => t) t

/-- 1 ns with nothing commanded: the clocks of the fabric and of its RAW lanes have their edges and the ns passes (DESIGN CHOICE,
notes/assumptions/11.md). -/
def State.idle (s : State) : State := (forN 48 s.rawEdge s.fabricEdge).advance 1

/-! ## Registers -/

/-- `LAN_QUAD_q` from bit 8: the rate in units of 125 Mbit/s, and PAM4; the rates of ETHERNET and SPAN are fixed (Table
10.1). -/
def State.quadRate (s : State) (q : Nat) : Nat :=
  match s.quadMode q with
  | 1 => 850 + 2 ^ 12
  | 2 => 900 + 2 ^ 12
  | 3 => field (s.lan.quad.getD q 0) 8 13
  | _ => 0

/-- A LAN register at an offset of its block (Table 10.4). -/
def State.lanRead (s : State) (o : Nat) : Option Word :=
  if o < 0x60 then
    let q := o / 4
    let tr := (List.range 4).foldl (fun a i => if (s.laneAt (4 * q + i)).trained then a + 2 ^ i else a) 0
    some (ofFields [(0, s.quadMode q), (2, (s.clk.good.getLsbD (16 + q)).toNat), (3, (s.lan.powered.getLsbD q).toNat), (4, tr),
      (8, s.quadRate q)])
  else if 0x1000 ≤ o ∧ o < 0x2800 then
    let n := (o - 0x1000) / 0x40
    let l := s.laneNow n
    match o % 0x40 with
    | 0 => some (ofFields [(0, l.ctrl.toNat)])
    | 4 =>
      let here (free : Bool) : Nat := (l.trained || (s.laneOn n && free)).toNat
      some (ofFields [(0, here (Config.signalDetect n s.now)), (1, here (Config.cdrLock n s.now)), (2, l.trained.toNat), (3, l.firReject.toNat),
        (8, l.attempts.toNat)])
    | 8 => some l.fir
    | 0xC => some (ofFields [(0, l.peaking.toNat), (8, l.ctleAdapt.toNat), (9, l.dfeAdapt.toNat), (10, l.freeze.toNat)])
    | 0x10 => some (ofFields [(0, l.dfeSel.toNat)])
    | 0x14 => some (ofFields [(0, (l.dfe.getD l.dfeSel.toNat 0).toNat)])
    | 0x18 => some l.eyeCtrl
    | 0x1C => some (ofFields [(0, l.eyeErr.toNat), (30, l.eyeDone.toNat), (31, l.eyeBusy.toNat)])
    | 0x20 => some (ofFields [(0, l.prbs.toNat)])
    | 0x24 => some l.prbsErr
    | _ => none
  else none

/-- What a read of an RC register clears (Table 10.4). -/
def State.lanClear (s : State) (o : Nat) : State :=
  if 0x1000 ≤ o ∧ o < 0x2800 ∧ o % 0x40 = 0x24 then s.modLane ((o - 0x1000) / 0x40) fun l => { l with prbsErr := 0 } else s

/-- A write to a LAN register (Table 10.4). -/
def State.lanWrite (s : State) (o : Nat) (v : Word) : Option State :=
  if (s.lanRead o).isNone then none
  else if o < 0x60 then some s
  else
    let n := (o - 0x1000) / 0x40
    some (if o % 0x40 = 8 then s.firWrite n v
      else if o % 0x40 = 0x18 then s.eyeWrite n v
      else if o % 0x40 = 0xC then s.rxeqWrite n v
      else s.modLane n fun l =>
        if o % 0x40 = 0 then { l with ctrl := BitVec.ofNat 3 v.toNat }
        else if o % 0x40 = 0x10 then { l with dfeSel := BitVec.ofNat 5 v.toNat }
        else if o % 0x40 = 0x20 then { l with prbs := BitVec.ofNat 6 v.toNat }
        else l)

/-! ## Commands -/

/-- LAN_TXFIR_WRITE (R249). -/
def execLanTxfirWrite (m : MasterId) (lane : Fin 96) (val : Word) (s : State) : Host.Outcome State Fault Refusal :=
  .next (s.regWrite m (BitVec.ofNat 48 (0x901008 + 0x40 * lane.val)) fun s => s.firWrite lane val)

/-- LANE_TRAINED (R251, R256). -/
def execLaneTrained (lane : Fin 96) (s : State) : Host.Outcome State Fault Refusal :=
  .next (if (s.laneAt lane).training.isSome then s.laneDone lane else s)

/-- LANE_TRAIN_TIMEOUT (R251). -/
def execLaneTrainTimeout (lane : Fin 96) (s : State) : Host.Outcome State Fault Refusal :=
  .next (match (s.laneAt lane).training with
    | none => s
    | some t =>
      let s := s.advanceTo (t + 500000000)
      (s.modLane lane fun l => { l with training := none, retryAt := some (s.now + 100000000) }).raise .lanTrainFail
        (BitVec.ofNat 32 lane))

/-- LANE_TRAIN_RETRY (R251): as long as the quad is in use. -/
def execLaneTrainRetry (lane : Fin 96) (s : State) : Host.Outcome State Fault Refusal :=
  .next (match (s.laneAt lane).retryAt with
    | none => s
    | some t =>
      let s := s.advanceTo t
      if s.quadMode (lane.val / 4) = 0 then s.modLane lane fun l => { l with retryAt := none } else s.trainLane lane)

/-- EYE_SCAN (R252). -/
def execEyeScan (m : MasterId) (lane : Fin 96) (val : Word) (s : State) : Host.Outcome State Fault Refusal :=
  .next (s.regWrite m (BitVec.ofNat 48 (0x901018 + 0x40 * lane.val)) fun s => s.eyeWrite lane (val ||| 0x80000000))

/-- EYE_SCAN_DONE (R252): of the 2 ^ (16 + 2 × DWELL) bits compared, `mismatches` differ. -/
def execEyeScanDone (lane : Fin 96) (mismatches : Nat) (s : State) : Host.Outcome State Fault Refusal :=
  .next (if (s.laneAt lane).eyeBusy then
      s.modLane lane fun l => { l with eyeErr := BitVec.ofNat 24 (min (min mismatches (2 ^ (16 + 2 * field l.eyeCtrl 16 3))) 0xFFFFFF), eyeDone := true, eyeBusy := false }
    else s)

end Sys2Proof.Machine
end

