-- ==== Sys2Proof/Machine/Burrow.lean ====
section
/-! DEFINITION. The Burrow: word accesses, remap, bank power states, clears, conflict counters and the scrub, with the BRW
registers and the commands of this family (chapter 8). -/

namespace Sys2Proof

/-- The first error in code order (chapter 8, corner). -/
def Err.first (a b : Err) : Err := if a = .ok then b else if b = .ok ∨ a.code ≤ b.code then a else b

namespace Machine.WordOp

/-- Bytes a word access touches. -/
def len : WordOp → Nat | .read n => n | .write d => d.length | _ => 8

/-- The access writes granule g as a whole, from byte lo of the word (R208). -/
def whole (o : WordOp) (lo g : Nat) : Bool :=
  match o with | .write d => decide (lo ≤ 8 * g) && decide (8 * g + 8 ≤ lo + d.length) | _ => false

/-- The access touches granule g. -/
def touches (o : WordOp) (lo g : Nat) : Bool := decide (lo < 8 * g + 8) && decide (8 * g < lo + o.len)

/-- A read-modify-write (R208). -/
def rmw (o : WordOp) (lo : Nat) : Bool :=
  match o with
  | .read _ => false
  | .write _ => (List.range 4).any fun g => o.touches lo g && !o.whole lo g
  | _ => true

end Machine.WordOp

end Sys2Proof

namespace Sys2Proof.Machine

/-! ## Addressing (R204) -/

def bankOf (o : Nat) : Nat := o / 256 % 32
def wordOf (o : Nat) : Nat := o / 8192 * 8 + o % 256 / 32
/-- The local address of Burrow offset o. -/
def burrowAddr (o : Nat) : Nat := 0x40000000 + o

/-- The parts of n bytes at offset o that lie in one word each; `fuel` bounds their number. -/
def wordParts : Nat → Nat → Nat → List (Nat × Nat)
  | 0, _, _ => []
  | f + 1, o, n => if n = 0 then [] else let k := min n (32 - o % 32); (o, k) :: wordParts f (o + k) (n - k)

/-! ## Errors (R206, R209) -/

/-- Single-bit errors of one read: corrected, recorded and counted; `m` marks granules. -/
def State.burrowCe (s : State) (b w : Nat) (m : BitVec 4) : State :=
  let n := popCount m.toNat 4
  if n = 0 then s
  else
    let last := ((List.range 4).filter fun g => m.getLsbD g).getLast?.getD 0
    ((s.modBank b fun k => { k with ceLast := some (last, w) }).modBrw fun x => { x with ceCount := satAdd x.ceCount n }).bankBucket b n

/-- A double-bit error in a granule is checked against the known-bad list (R209). The word field of the detail has 16 bits: of
a spare row's word, numbered from 65,536, it shows the low ones (DESIGN CHOICE, notes/assumptions/142.md). -/
def State.burrowUe (s : State) (b w : Nat) (who : Option MasterId) (g : Nat) : State :=
  let k := s.bankAt b
  if k.bad.contains (w, g) then s.modBrw fun x => { x with ueRepeat := satInc x.ueRepeat }
  else
    let s := s.modBrw fun x => { x with ueCount := satInc x.ueCount }
    let s := if k.bad.length < 4 then s.modBank b fun k => { k with bad := k.bad ++ [(w, g)] } else s
    s.raiseBy who .brwUe (ofFields [(0, b), (5, w % 65536), (21, g), (23, who.isNone.toNat), (24, (who.getD 0).toNat)])

/-- The double-bit errors of one read. -/
def State.burrowUes (s : State) (b w : Nat) (who : Option MasterId) (m : BitVec 4) : State :=
  (List.range 4).foldl (fun s g => if m.getLsbD g then s.burrowUe b w who g else s) s

/-! ## Conflict counters (R217) -/

/-- What is left of an interval of cycles, as its pieces, without those of x. -/
def cutPiece (x p : Nat × Nat) : List (Nat × Nat) :=
  [(p.1, min p.2 x.1), (max p.1 x.2, p.2)].filter fun y => decide (y.1 < y.2)

/-- The pieces of [lo, hi) that no listed interval covers. -/
def uncovered (l : List (Nat × Nat)) (lo hi : Nat) : List (Nat × Nat) :=
  if lo < hi then l.foldl (fun ps x => ps.flatMap (cutPiece x)) [(lo, hi)] else []

/-- Cycles add to a master's counter, which saturates. -/
def State.conflictAdd (s : State) (m : MasterId) (n : Nat) : State :=
  s.modBrw fun x => { x with conflict := x.conflict.mod 0 m.toNat fun v => satAdd v n }

/-- Master m waited at the head of a bank's queue in cycles lo to hi - 1: each cycle counts once, whatever other banks it waited
at. No wait reaches further back than 65,536 cycles (R215). -/
def State.conflictWait (s : State) (m : MasterId) (lo hi : Nat) : State :=
  let l := s.brw.waited.getD m.toNat []
  let new := uncovered l lo hi
  (s.conflictAdd m ((new.map fun p => p.2 - p.1).sum)).modBrw fun x =>
    { x with waited := x.waited.set [] m.toNat ((l ++ new).filter fun p => decide (lo < p.2 + 65536)) }

/-! ## Requests and word accesses (R205 to R210) -/

/-- A word access of a request. -/
def WordAcc.of (a : WordAcc) (p : Packet) : Bool := a.dev == p.hdr.srcDev && a.master == p.hdr.src && a.tag == p.hdr.tag

/-- The bytes a request has read, in address order. -/
def BurrowReq.data (r : BurrowReq) (o n : Nat) : List Byte :=
  (wordParts (n / 32 + 2) o n).flatMap fun x => ((r.parts.find? fun y => y.1 == x.1).map (·.2)).getD []

/-- One word of a request is done; the last one sends the response (R205, R207). -/
def State.wordDone (s : State) (dev : Byte) (m : MasterId) (tag : BitVec 6) (e : Err) (part : Nat × List Byte) : State :=
  let mine (r : BurrowReq) : Bool := r.pkt.hdr.srcDev == dev && r.pkt.hdr.src == m && r.pkt.hdr.tag == tag
  match s.brw.reqs.find? mine with
  | none => s
  | some r =>
    let r' := { r with left := r.left - 1, err := r.err.first e, parts := part :: r.parts }
    if r'.left = 0 then
      (s.modBrw fun x => { x with reqs := removeFirst mine x.reqs }).respond r.pkt r'.err
        (if r.pkt.hdr.isWrite then [] else r'.data (r.pkt.hdr.addr.toNat - 0x40000000) r.pkt.hdr.bytes)
    else s.modBrw fun x => { x with reqs := x.reqs.map fun q => if mine q then r' else q }

/-- A bank's accesses are kept in the order of the NOC cycles they reached it in, and within one cycle in ascending master
order (R205). -/
def insertAcc (a : WordAcc) : List WordAcc → List WordAcc
  | [] => [a]
  | x :: l => if a.time < x.time ∨ a.time = x.time ∧ a.acting.toNat < x.acting.toNat then a :: x :: l else x :: insertAcc a l

/-- One word access reaches its bank: accepted or held, or answered BANK_OFF (R213, R215). -/
def State.wordArrive (s : State) (a : WordAcc) : State :=
  let b := bankOf a.base
  let k := s.bankAt b
  if k.state = .on ∨ k.state = .clearing ∨ k.queued then
    (s.modBank b fun k => { k with queue := insertAcc a k.queue }).promote b
  else s.wordDone a.dev a.master a.tag .bankOff (a.base, [])

/-- The word access for one part of a request. -/
def Packet.wordAcc (p : Packet) (who : MasterId) (cyc o : Nat) (x : Nat × Nat) : WordAcc :=
  let h := p.hdr
  { dev := h.srcDev, master := h.src, tag := h.tag, acting := who, word := wordOf x.1, base := x.1, time := cyc
    op := if h.isWrite then .write ((p.data.drop (x.1 - o)).take x.2)
      else if h.opc == opAdd then .add (BitVec.ofNat 64 (leNat p.data))
      else if h.opc == opSwap then .swap (BitVec.ofNat 64 (leNat p.data)) else .read x.2 }

/-- A request that has come to its group's port reaches the Burrow at offset o, in the cycle of its arrival there (R205,
R210). -/
def State.burrowArrive (s : State) (q : InFlight) (o : Nat) : State :=
  let p := q.pkt
  if s.writeBlocked p then s.respond p .busy []
  else
    let l := wordParts (p.hdr.bytes / 32 + 2) o p.hdr.bytes
    let s := s.modBrw fun x => { x with reqs := x.reqs ++ [{ pkt := p, left := l.length, err := .ok, parts := [] }] }
    l.foldl (fun s x => s.wordArrive (Packet.wordAcc p (s.acting p.hdr) (q.arrived.getD s.cycNow) o x)) s

/-- The access a bank serves next: none while it is to be cleared; accesses to a row being copied are held (R211, R215). -/
def State.nextAccess (s : State) (b : Nat) : Option WordAcc :=
  let k := s.bankAt b
  if k.state = .clearing ∨ k.queued then none
  else k.queue.find? fun a => match s.brw.copy with | some (c, _, row, _) => !(c == b && a.word / 64 == row) | none => true

/-- The new bytes of a word access's part, given the old ones and the granules that stay as they are (R208). -/
def WordOp.apply (o : WordOp) (lo : Nat) (old : List Byte) (bad : BitVec 4) : List Byte :=
  match o with
  | .read _ => old
  | .write d => (List.range d.length).map fun i => if bad.getLsbD ((lo + i) / 8) then old.getD i 0 else d.getD i 0
  | .add v => if bad = 0 then leBytes (leNat old + v.toNat) 8 else old
  | .swap v => if bad = 0 then leBytes v.toNat 8 else old

/-- The bank's data is lost once the accesses it had accepted are served (R213). -/
def State.wipeIdle (s : State) (b : Nat) : State := if (s.bankAt b).queue.isEmpty then s.wipeBank b else s

/-- The cycle in which a bank can serve an access: not before it arrived, nor while another holds the bank (R205). -/
def Bank.startOf (k : Bank) (a : WordAcc) : Nat := max a.time k.freeAt

/-- The access that is to be served from cycle c on takes the bank, for 3 cycles if it is a read-modify-write (R208). If it was
the head of the queue, the cycles it waited there count, but for one in which its own master's single-cycle access held the
bank (R217). -/
def State.takeBank (s : State) (b : Nat) (a : WordAcc) : State :=
  let k := s.bankAt b
  let c := k.startOf a
  let rmw := a.op.rmw (a.base % 32)
  let head := k.queue.head? == some a
  let hi := if k.holder = some a.acting ∧ c = k.freeAt then c - 1 else c
  let s := if head then s.conflictWait a.acting (max a.time k.headAt) hi else s
  s.modBank b fun k =>
    { k with
      queue := removeFirst (fun x => x == a) k.queue, freeAt := c + (if rmw then 3 else 1)
      headAt := if head then c else k.headAt, holder := if rmw then none else some a.acting }

/-- A bank serves one word access; `sbe` and `dbe` are what the read of the word finds in its four granules. A granule the
access writes as a whole is not read (R208; notes/assumptions/46.md). -/
def State.serveWord (s : State) (b : Nat) (a : WordAcc) (sbe dbe : BitVec 4) : State :=
  let lo := a.base % 32
  let rmw := a.op.rmw lo
  let reads := match a.op with | .read _ => true | _ => rmw
  let seen (m : BitVec 4) : BitVec 4 :=
    (List.range 4).foldl (fun x g => setBit x g (reads && m.getLsbD g && !a.op.whole lo g)) 0
  let bad := seen dbe
  let mine : BitVec 4 := (List.range 4).foldl (fun x g => setBit x g (bad.getLsbD g && a.op.touches lo g)) 0
  let isRead := match a.op with | .read _ => true | _ => false
  let poison := if isRead then bad != 0 else mine != 0
  let s := (s.advance (s.nocNs ((s.bankAt b).startOf a - s.cycNow))).takeBank b a
  let s := (s.burrowCe b a.word (seen (sbe &&& ~~~dbe))).burrowUes b a.word (some a.acting) bad
  let old := Memory.readN s.ram (burrowAddr a.base) a.op.len
  let s := s.modRam fun m => Memory.writeN m (burrowAddr a.base) (a.op.apply lo old mine)
  let s := if isRead then s
    else s.modBank b fun k =>
      { k with
        bad := k.bad.filter fun x => !(x.1 == a.word && a.op.whole lo x.2)
        writeback := if k.writeback = some a.word then none else k.writeback }
  let s := if (s.bankAt b).state = .off then s.wipeIdle b else s
  s.wordDone a.dev a.master a.tag (if poison then .poison else .ok) (a.base, old)

/-! ## Remap (R211, R212) -/

/-- A write to `BRW_REMAP_CMD`. -/
def State.brwRemapCmd (s : State) (v : Word) : State :=
  if v.getLsbD 31 then
    let b := field v 0 5
    let e := field v 5 3
    let k := s.bankAt b
    let why := if (k.remap.getD e {}).valid || k.spent.getLsbD e then 1 else if k.state != .on then 3
      else if s.brw.copy.isSome || s.brw.rmPersist then 5 else 0
    s.modBrw fun x =>
      { x with
        rmWhere := BitVec.ofNat 8 (b + 32 * e), rmResult := BitVec.ofNat 3 why
        copy := if why = 0 then some (b, e, field v 8 10, v.getLsbD 24) else x.copy
        copyAt := if why = 0 then s.now else x.copyAt }
  else s

/-- A copy or a clear has held bank b up to now (R217). -/
def State.bankHeld (s : State) (b : Nat) : State :=
  s.modBank b fun k => { k with freeAt := max k.freeAt s.cycNow, holder := none }

/-- The copy ends: the entry is VALID, and with PERSIST its Ledger write is queued. -/
def State.brwCopyDone (s : State) : State :=
  match s.brw.copy with
  | none => s
  | some (b, e, row, persist) =>
    let s := (s.advanceTo (s.brw.copyAt + s.nocNs 128)).bankHeld b
    let s := s.modBank b fun k =>
      { k with
        spent := match remapOf k.remap 8 row with | none => k.spent | some j => setBit k.spent j true
        remap := remapSet k.remap 8 e row false }
    let s := s.modBrw fun x =>
      { x with copy := none, rmWhere := BitVec.ofNat 8 (b + 32 * e), rmResult := 0, rmPersist := persist }
    let s := s.raise .brwRemapDone (ofFields [(0, b), (5, e)])
    if persist then s.modEvt fun x => x.queueUpd (.brw b e row) else s

/-! ## Bank power states and clears (R213 to R216) -/

/-- A bank waits to be cleared no longer, and the accesses it held are answered BANK_OFF (notes/assumptions/48.md). -/
def State.dropClear (s : State) (b : Nat) : State :=
  if (s.bankAt b).queued then
    let l := (s.bankAt b).queue
    let s := (s.modBank b fun k => { k with queued := false, queue := [] }).modBrw fun x =>
      { x with clearQ := x.clearQ.filter (· != b) }
    let s := s.modPwr fun p => { p with steps := p.steps.filter fun x => x.1 != .bankClear b }
    l.foldl (fun s a => s.wordDone a.dev a.master a.tag .bankOff (a.base, [])) s
  else s

/-- The bank leaves ON, or OFF, for a state in which it takes no access. -/
def State.bankDown (s : State) (b : Nat) (st : BankState) : State := (s.dropClear b).modBank b fun k => { k with state := st }

/-- The state `BRW_BANK_CTRL_b` asks for takes effect (R213); a clear in progress comes first. -/
def State.applyBank (s : State) (b : Nat) : State :=
  match (s.bankAt b).state, (s.bankAt b).ctrl.toNat with
  | .clearing, _ => s
  | .off, 0 => s.queueClear b
  | _, 0 => s
  | _, 1 => (s.bankDown b .retain).updLaps
  | _, _ => ((s.bankDown b .off).wipeIdle b).updLaps

/-- A write to `BRW_BANK_CTRL_b`; code 3 asks for no state and is ignored (notes/assumptions/48.md). Before LOAD
the request waits, and so it does in DEEP until the wake has brought the banks back (R213, R216). -/
def State.bankCtrl (s : State) (b : Nat) (v : Word) : State :=
  if field v 0 2 = 3 then s
  else
    let s := s.modBank b fun k => { k with ctrl := BitVec.ofNat 2 v.toNat }
    match s.mode with
    | .off | .ramp | .sense | .lock => s
    | .deep => if s.pwr.chilled then s else s.applyBank b
    | _ => s.applyBank b

/-- Clears running or granted next. -/
def State.clears (s : State) : Nat :=
  ((List.range 32).filter fun b => (s.bankAt b).state == .clearing).length +
    (s.pwr.steps.filter fun x => match x.1 with | .bankClear _ => true | _ => false).length

/-! ## Scrub (R218, R219) -/

/-- The scrub pointer has passed the last spare row: the lap ends, with the time that counts toward it (R219). -/
def State.scrubLap (s : State) (b : Nat) : State :=
  let k := s.bankAt b
  let t := k.lapStop.getD s.now
  let ns := t - k.lapAt
  (s.modBank b fun k => { k with scrub := 0, lapAt := t, lap := BitVec.ofNat 32 (ns / 1000) }).raiseIf
    (decide (s.brw.scrubWarn ≠ 0 ∧ s.brw.scrubWarn.toNat * 1000000 < ns)) .brwScrubSlow (BitVec.ofNat 32 b)

/-- The bank is idle in cycles of a running NOC, and its scrub runs (R218). -/
def State.scrubs (s : State) (b : Nat) : Bool :=
  let k := s.bankAt b
  s.brw.scrubEn && k.state == .on && k.queue.isEmpty && s.running .noc &&
    (match s.brw.copy with | some (c, _, _, _) => c != b | none => true)

/-! ## Registers -/

/-- The code of a bank's state in `BRW_BANK_STATE`. -/
def BankState.code : BankState → Nat | .on => 0 | .retain => 1 | .off => 2 | .clearing => 3

/-- A remap entry as a register shows it. -/
def RemapEntry.word (e : RemapEntry) : Word := ofFields [(0, e.item), (30, e.persisted.toNat), (31, e.valid.toNat)]

/-- A BRW register at an offset of its block (Table 8.1). -/
def State.brwRead (s : State) (o : Nat) : Option Word :=
  let w := s.brw
  let states (b0 : Nat) : Word := ofFields ((List.range 16).map fun i => (2 * i, (s.bankAt (b0 + i)).state.code))
  if o = 0 then
    some (ofFields [(0, ((List.range 32).filter fun b => (s.bankAt b).state == .clearing).length),
      (8, ((List.range 32).filter fun b => (s.bankAt b).queued).length), (16, w.copy.isSome.toNat)])
  else if o = 8 then some (states 0)
  else if o = 0xC then some (states 16)
  else if o = 0x40 then some 0
  else if o = 0x44 then some (ofFields [(0, (w.copy.isSome || w.rmPersist).toNat), (1, w.rmResult.toNat), (4, w.rmWhere.toNat)])
  else if o = 0x50 then some w.ceCount
  else if o = 0x54 then some w.ueCount
  else if o = 0x58 then some w.ueRepeat
  else if o = 0x5C then some w.settCe
  else if o = 0x60 then some (BitVec.ofNat 32 w.settUe.toNat)
  else if o = 0x64 then some (BitVec.ofNat 32 (w.settUe.toNat / 2 ^ 32))
  else if o = 0x70 then some (ofFields [(0, w.scrubEn.toNat), (16, w.scrubWarn.toNat)])
  else if 0x100 ≤ o ∧ o < 0x180 then some (ofFields [(0, (s.bankAt ((o - 0x100) / 4)).ctrl.toNat)])
  else if 0x200 ≤ o ∧ o < 0x280 then
    some (match (s.bankAt ((o - 0x200) / 4)).ceLast with | none => 0 | some (g, x) => ofFields [(0, x % 65536), (16, g), (31, 1)])
  else if 0x1000 ≤ o ∧ o < 0x1400 then
    some ((s.bankAt ((o - 0x1000) / 0x20)).remap.getD ((o - 0x1000) % 0x20 / 4) {}).word
  else if 0x2000 ≤ o ∧ o < 0x2200 then
    some (BitVec.ofNat 32 (if o % 8 = 0 then (w.conflict.getD ((o - 0x2000) / 8) 0).toNat
      else (w.conflict.getD ((o - 0x2000) / 8) 0).toNat / 2 ^ 32))
  else if 0x3000 ≤ o ∧ o < 0x3080 then some (ofFields [(0, (s.bankAt ((o - 0x3000) / 4)).bucket.toNat)])
  else if o = 0x3100 then some (ofFields [(0, w.thresh.toNat), (16, w.leak.toNat)])
  else if 0x3200 ≤ o ∧ o < 0x32C0 then some (ofFields [(0, (w.settBucket.getD ((o - 0x3200) / 4) 0).toNat)])
  else if o = 0x3300 then some (ofFields [(0, w.settThresh.toNat), (16, w.settLeak.toNat)])
  else if 0x4000 ≤ o ∧ o < 0x4080 then some (s.bankAt ((o - 0x4000) / 4)).lap
  else none

/-- What a read of an RC register clears (Table 8.1). -/
def State.brwClear (s : State) (o : Nat) : State :=
  s.modBrw fun w =>
    if o = 0x50 then { w with ceCount := 0 } else if o = 0x54 then { w with ueCount := 0 }
    else if o = 0x58 then { w with ueRepeat := 0 } else if o = 0x5C then { w with settCe := 0 }
    else if 0x2000 ≤ o ∧ o < 0x2200 ∧ o % 8 = 0 then { w with conflict := w.conflict.set 0 ((o - 0x2000) / 8) 0 } else w

/-- A write to a BRW register (Table 8.1). -/
def State.brwWrite (s : State) (o : Nat) (v : Word) : Option State :=
  if (s.brwRead o).isNone then none
  else if o = 0x40 then some (s.brwRemapCmd v)
  else if o = 0x60 then some (s.modBrw fun w => { w with settUe := w.settUe &&& ~~~BitVec.ofNat 48 v.toNat })
  else if o = 0x64 then some (s.modBrw fun w => { w with settUe := w.settUe &&& ~~~BitVec.ofNat 48 (v.toNat * 2 ^ 32) })
  else if o = 0x70 then
    some (s.modBrw fun w => { w with scrubEn := v.getLsbD 0, scrubWarn := BitVec.ofNat 16 (field v 16 16) })
  else if 0x100 ≤ o ∧ o < 0x180 then some (s.bankCtrl ((o - 0x100) / 4) v)
  else if o = 0x3100 then some (s.bucketCfg .burrow v)
  else if o = 0x3300 then some (s.bucketCfg .sett v)
  else some s

/-! ## Commands -/

/-- BANK_WORD_ACCESS (R205 to R209): the bank serves the access it is to serve next. -/
def execBankWordAccess (b : Fin 32) (sbe dbe : BitVec 4) (s : State) : Host.Outcome State Fault Refusal :=
  .next (match s.nextAccess b with
    | none => s
    | some a => s.serveWord b a sbe dbe)

/-- BRW_REMAP (R211). -/
def execBrwRemap (m : MasterId) (val : Word) (s : State) : Host.Outcome State Fault Refusal :=
  .next (s.regWrite m 0x700040 fun s => s.brwRemapCmd (val ||| 0x80000000))

/-- BRW_REMAP_COPY_DONE (R211, R212). -/
def execBrwRemapCopyDone (s : State) : Host.Outcome State Fault Refusal := .next s.brwCopyDone

/-- BRW_BANK_CTRL_WRITE (R213). -/
def execBrwBankCtrlWrite (m : MasterId) (b : Fin 32) (val : Word) (s : State) : Host.Outcome State Fault Refusal :=
  .next (s.regWrite m (BitVec.ofNat 48 (0x700100 + 4 * b.val)) fun s => s.bankCtrl b val)

/-- BANK_CLEAR_START (R214): the first bank in turn asks for its step, while fewer than 8 clear. -/
def execBankClearStart (s : State) : Host.Outcome State Fault Refusal :=
  .next (match s.brw.clearQ with
    | [] => s
    | b :: r => if s.clears < 8 then (s.modBrw fun x => { x with clearQ := r }).requestStep (.bankClear b) else s)

/-- BANK_CLEAR_DONE (R214, R215): 8,256 NOC cycles after its start. -/
def execBankClearDone (b : Fin 32) (s : State) : Host.Outcome State Fault Refusal :=
  .next (if (s.bankAt b).state = .clearing then
      let s := s.advanceTo ((s.bankAt b).clearAt + s.nocNs 8256)
      let s := ((s.wipeBank b).bankHeld b).modBank b fun k =>
        { k with state := .on, bad := [], writeback := none, headAt := max k.headAt k.clearCyc }
      s.updLaps.applyBank b
    else s)

/-- BANK_SCRUB_READ (R218, R219): in the next cycle the bank is free, a pending correction is written back, and the word at
the pointer is read. -/
def execBankScrubRead (b : Fin 32) (sbe dbe : BitVec 4) (s : State) : Host.Outcome State Fault Refusal :=
  .next (if s.scrubs b then
      let c := max s.cycNow (max (s.bankAt b).freeAt ((s.bankAt b).scrubAt + 1))
      let s := s.advance (s.nocNs (c - s.cycNow))
      let w := (s.bankAt b).scrub
      let fix := sbe &&& ~~~dbe
      let s := (s.burrowCe b w fix).burrowUes b w none dbe
      let s := s.modBank b fun k => { k with scrub := w + 1, scrubAt := c, writeback := if fix = 0 then none else some w }
      if 66048 ≤ w + 1 then s.scrubLap b else s
    else s)

/-- BANK_RETAIN_TO_ON (R213). -/
def execBankRetainToOn (b : Fin 32) (s : State) : Host.Outcome State Fault Refusal :=
  .next (if (s.bankAt b).state = .retain ∧ (s.bankAt b).ctrl = 0 ∧ (s.mode ≠ .deep ∨ s.pwr.waking.isSome) then
      (s.modBank b fun k => { k with state := .on }).updLaps
    else s)

end Sys2Proof.Machine
end

