-- ==== Sys2Proof/Machine/Ddr.lean ====
section
/-! DEFINITION. DDR5 channels and decoupling queues: mapping, the symbol code's reports, port queues, remap, retirement, pushes,
waits and drops, with the MEM registers and the commands of this family (chapter 9). -/

namespace Sys2Proof.Machine

/-! ## Mapping (R226 to R228) -/

/-- Lines of channel c. -/
def State.chLines (s : State) (c : Nat) : Nat := s.chGiB c * 2 ^ 24

/-- The parts of n bytes at offset o that lie in one 64 B line each; `fuel` bounds their number. -/
def lineParts : Nat → Nat → Nat → List (Nat × Nat)
  | 0, _, _ => []
  | f + 1, o, n => if n = 0 then [] else let k := min n (64 - o % 64); (o, k) :: lineParts f (o + k) (n - k)

/-- The subchannel whose burst carries a line (R226). -/
def subchannel (line : Nat) : Nat := line % 2

/-- Channel and line of a DDR offset. -/
def State.lineOf (s : State) (o : Nat) : Nat × Nat := let x := s.ddrLoc o; (x.1, x.2 / 64)

/-- The remap entry that serves a line (R232). -/
def State.lineEntry (s : State) (c line : Nat) : Option Nat := remapOf (s.chAt c).remap 16 line

/-- The copy in progress holds accesses to a line of this extent (R232). -/
def State.lineHeld (s : State) (o n : Nat) : Bool :=
  match s.mem.copy with
  | none => false
  | some (c, _, line, _) => (lineParts (n / 64 + 2) o n).any fun x => s.lineOf x.1 == (c, line)

/-! ## Contents -/

/-- Bytes of one line, from DDR or from the line store that replaces it. -/
def State.readLine (s : State) (o n : Nat) : List Byte :=
  let x := s.lineOf o
  match s.lineEntry x.1 x.2 with
  | some i => (List.range n).map fun j => (s.chAt x.1).store.getD (64 * i + o % 64 + j) 0
  | none => Memory.readN s.ram (0x10000000000 + o) n

/-- Write bytes into one line. A whole line leaves the known-bad list, or clears its store's POISON mark (R230). -/
def State.writeLine (s : State) (o : Nat) (l : List Byte) : State :=
  let x := s.lineOf o
  match s.lineEntry x.1 x.2 with
  | some i =>
    s.modCh x.1 fun k =>
      { k with store := k.store.fill 0 (64 * i + o % 64) l.length fun j => l.getD j 0
               storeBad := if l.length = 64 then setBit k.storeBad i false else k.storeBad
               bad := if l.length = 64 then k.bad.filter (· != x.2) else k.bad }
  | none =>
    let s := s.modRam fun m => Memory.writeN m (0x10000000000 + o) l
    if l.length = 64 then s.modCh x.1 fun k => { k with bad := k.bad.filter (· != x.2) } else s

/-- Bytes of an extent. -/
def State.readDdr (s : State) (o n : Nat) : List Byte := (lineParts (n / 64 + 2) o n).flatMap fun x => s.readLine x.1 x.2

/-- Write an extent, except in the lines listed by their place in it (R230). -/
def State.writeDdr (s : State) (o : Nat) (l : List Byte) (skip : List Nat) : State :=
  (lineParts (l.length / 64 + 2) o l.length).zipIdx.foldl
    (fun s x => if skip.contains x.2 then s else s.writeLine x.1.1 ((l.drop (x.1.1 - o)).take x.1.2)) s

/-- A write of this extent covers part of a line, and so needs a read (R230). -/
def partialWrite (o n : Nat) : Bool := o % 64 != 0 || n % 64 != 0

/-! ## Symbol code (R229, R230) -/

/-- An uncorrectable line is checked against the channel's known-bad list. -/
def State.memUe (s : State) (who : Option MasterId) (c line : Nat) : State :=
  let k := s.chAt c
  if k.bad.contains line then s.modCh c fun k => { k with ueRepeat := satInc k.ueRepeat }
  else
    (s.modCh c fun k =>
      { k with ueCount := satInc k.ueCount, bad := if k.bad.length < 8 then k.bad ++ [line] else k.bad }).raiseBy who .memUe
      (ofFields [(0, c), (2, line)])

/-- Two symbols of one beat are wrong: the line is uncorrectable. The code promises to detect two; more than two count as
detected too (DESIGN CHOICE, notes/assumptions/142.md). -/
def LineRead.bad (r : LineRead) : Bool :=
  (List.range 16).any fun b => decide (2 ≤ ((r.filter fun x => x.1.val == b).map (·.2)).eraseDups.length)

/-- A line of a channel has been read; true when it is POISON. A line in a store is not read from DDR. -/
def State.lineRead (s : State) (who : Option MasterId) (c line : Nat) (r : LineRead) : State × Bool :=
  match s.lineEntry c line with
  | some i => (s, (s.chAt c).storeBad.getLsbD i)
  | none =>
    if LineRead.bad r then (s.memUe who c line, true)
    else match r.getLast? with
      | none => (s, false)
      | some (beat, sym) =>
        ((s.modCh c fun k =>
          { k with ceCount := satInc k.ceCount, ceLast := some (line, BitVec.ofNat 4 beat.val, BitVec.ofNat 4 sym.val) }).chBucket c 1, false)

/-- The lines an access reads: all of a read's, and those a write covers in part. -/
def readsLine (isRead : Bool) (x : Nat × Nat) : Bool := isRead || x.2 != 64

/-- The lines of an extent come back from DDR; the places of those that are POISON. -/
def State.linesRead (s : State) (who : MasterId) (isRead : Bool) (o n : Nat) (l : List LineRead) : State × List Nat :=
  (lineParts (n / 64 + 2) o n).zipIdx.foldl (fun (r : State × List Nat) x =>
    if readsLine isRead x.1 then
      let y := r.1.lineOf x.1.1
      let z := r.1.lineRead (some who) y.1 y.2 (l.getD x.2 [])
      (z.1, if z.2 then r.2 ++ [x.2] else r.2)
    else r) (s, [])

/-! ## Port queues (R235) -/

/-- DDR offset of a request to the DDR range. -/
def ddrOff (h : Hdr) : Nat := h.addr.toNat - 0x10000000000

/-- Whole-line writes at the head of a port queue are taken by the channel and answered, in order; `fuel` bounds their
number (DEDUCED: a queue serves in order; notes/assumptions/49.md). -/
def State.portServe : Nat → Nat → State → State
  | 0, _, s => s
  | f + 1, c, s =>
    match (s.chAt c).portQ with
    | [] => s
    | p :: r =>
      let o := ddrOff p.hdr
      if !(s.chAt c).enabled then
        State.portServe f c ((s.modCh c fun k => { k with portQ := r }).respond p .decode [])
      else if p.hdr.isWrite && !partialWrite o p.hdr.bytes && !s.lineHeld o p.hdr.bytes && !(s.chAt c).selfRefresh && s.running .mem then
        State.portServe f c (((s.modCh c fun k => { k with portQ := r }).writeDdr o p.data []).respond p .ok [])
      else s

/-- The read for the head of a port queue has come back. -/
def State.portReturn (s : State) (c : Nat) (p : Packet) (lines : List LineRead) : State :=
  let o := ddrOff p.hdr
  let n := p.hdr.bytes
  let r := s.linesRead (s.acting p.hdr) p.hdr.isRead o n lines
  let s := r.1.modCh c fun k => { k with portQ := k.portQ.drop 1 }
  let e : Err := if r.2.isEmpty then .ok else .poison
  let s := if p.hdr.isRead then s.respond p e (s.readDdr o n) else (s.writeDdr o p.data r.2).respond p e []
  s.portServe 64 c

/-! ## Decoupling queues (R236 to R244) -/

/-- Beats of 64 B in n bytes. -/
def beatsOf (n : Nat) : Nat := (n + 63) / 64

/-- Beats of the response buffer in use: packets not fully taken, and reads issued to DDR (R236). -/
def Dq.used (d : Dq) : Nat :=
  (d.packets.foldl (fun a p => a + beatsOf p.data.length) 0) +
    ((d.pushes.filter fun p => p.isRead && p.got.isSome).foldl (fun a p => a + beatsOf p.len) 0)

/-- n beats can be reserved; an empty buffer takes any read (notes/assumptions/50.md). -/
def Dq.room (d : Dq) (n : Nat) : Bool := decide (d.used + n ≤ d.rspBeats.toNat) || d.used == 0

/-- The stale timer after an operation: it runs while packets are unread and no wait is held, and a restart clears STALE
(R242). -/
def State.dqTimer (s : State) (q : Nat) (restart : Bool) : State :=
  s.modDq q fun d =>
    { d with stale := d.stale && !restart
             staleFrom := if d.unread = 0 ∨ !d.waits.isEmpty then none else if restart then some s.now else some (d.staleFrom.getD s.now) }

/-- Beats add to `MEM_DQ_BEATS_q`, whose wrap sets OVF (R244). -/
def Dq.addBeats (d : Dq) (n : Nat) : Dq :=
  { d with beats := d.beats + BitVec.ofNat 48 n, err := if 2 ^ 48 ≤ d.beats.toNat + n then setBit d.err 3 true else d.err }

/-- The head packet is fully taken, so its token is free (R236). -/
def Dq.popPacket (d : Dq) : Dq := { d with packets := d.packets.drop 1, unread := d.unread - 1, free := d.free + 1 }

/-- A wait takes data from the head packet (R240). -/
def State.takeData (s : State) (q : Nat) (w : Packet) : State :=
  match (s.dqAt q).packets with
  | [] => s
  | k :: r =>
    if k.poison then ((s.modDq q Dq.popPacket).respond w .poison []).dqTimer q true
    else
      let n := min w.hdr.bytes k.data.length
      let s := s.modDq q fun d =>
        Dq.addBeats (if n = k.data.length then d.popPacket else { d with packets := { k with data := k.data.drop n } :: r }) (beatsOf n)
      (s.respond w .ok (k.data.take n)).dqTimer q true

/-- The answer to a wait that finds nothing outstanding (Table 9.3). -/
def Dq.nothing (d : Dq) : Err := if d.enable then .busy else .queueOff

/-- Held waits take what there is, in order of arrival; with nothing outstanding they are answered; `fuel` bounds their
number. -/
def State.serveWaits : Nat → Nat → State → State
  | 0, _, s => s
  | f + 1, q, s =>
    let d := s.dqAt q
    match d.waits with
    | [] => s
    | w :: r =>
      if !d.packets.isEmpty then State.serveWaits f q ((s.modDq q fun d => { d with waits := r }).takeData q w)
      else if d.outstanding = 0 then
        State.serveWaits f q ((s.modDq q fun d => { d with waits := r }).respond w d.nothing [])
      else s

/-- Serve the held waits, and keep the wait counter and the stale timer in step (R242, R244). -/
def State.dqSettle (s : State) (q : Nat) : State :=
  let s := if (s.dqAt q).waitFrom.isSome then s.syncWait q true else s
  let s := State.serveWaits (s.dqAt q).waits.length q s
  let s := s.modDq q fun d => { d with waitFrom := if d.waits.isEmpty then none else some (d.waitFrom.getD s.now) }
  s.dqTimer q false

/-- Queue, offset and KIND of a push (R237). -/
def pushQueue (h : Hdr) : Nat := field h.addr 38 6
def pushOff (h : Hdr) : Nat := field h.addr 0 38
def pushRead (h : Hdr) : Bool := h.addr.getLsbD 44

/-- Bytes of a push's extent: LEN + 1, or the beats of the descriptor. -/
def pushLen (p : Packet) : Nat := if pushRead p.hdr then 64 * (leAt p.data 0 8 % 64 + 1) else p.hdr.bytes

/-- An extent lies within one 4 KiB block and the DDR range, on an enabled channel. -/
def State.extentOk (s : State) (o n : Nat) : Bool :=
  decide (o % 4096 + n ≤ 4096) && decide (o + n ≤ s.ddrBytes) && (s.chAt (s.ddrLoc o).1).enabled

/-- The answer to a push (Table 9.2), and whether it is a denial to count. -/
def State.pushAnswer (s : State) (p : Packet) : Err × Bool :=
  let h := p.hdr
  let o := pushOff h
  let rd := pushRead h
  let d := s.dqAt (pushQueue h)
  let m := s.acting h
  if field h.addr 45 3 ≠ 0 ∨ (rd ∧ (h.len ≠ 7 ∨ o % 64 ≠ 0 ∨ leAt p.data 0 8 / 64 ≠ 0)) then (.decode, false)
  else if !s.extentOk o (pushLen p) then (.decode, false)
  else if m ≠ d.owner then (.accessDenied, true)
  else if s.denied m (13 + regionOf s.ddrBounds (o / 2 ^ 30)) rd (!rd) then (.accessDenied, true)
  else if !d.enable then (.queueOff, false)
  else if d.free = 0 then (.busy, false)
  else (.ok, false)

/-- A push is answered, and with OK it is in the request queue (R238). -/
def State.push (s : State) (p : Packet) : State :=
  let h := p.hdr
  let q := pushQueue h
  let a := s.pushAnswer p
  let s := if a.2 then s.denyOwner h (13 + regionOf s.ddrBounds (pushOff h / 2 ^ 30)) (pushRead h) else s
  let s := s.modDq q fun d =>
    match a.1 with
    | .ok =>
      { d with free := d.free - 1, outstanding := d.outstanding + 1
               pushes := d.pushes ++ [{ pkt := p, isRead := pushRead h, off := pushOff h, len := pushLen p, got := none }] }
    | .busy => { d with err := setBit d.err 0 true }
    | _ => d
  s.respond p a.1 []

/-- The push needs a DDR read before it completes. -/
def DqPush.reads (x : DqPush) : Bool := x.isRead || partialWrite x.off x.len

/-- The first push of a queue whose read has not come back. -/
def Dq.nextRead (d : Dq) : Option DqPush := d.pushes.find? fun x => x.reads && x.got.isNone

/-- The read of a push has come back; a READ is issued once its beats are reserved (R236). -/
def State.pushReturn (s : State) (q : Nat) (p : Packet) (lines : List LineRead) : State :=
  match (s.dqAt q).nextRead with
  | none => s
  | some x =>
    if sameReq x.pkt p ∧ (!x.isRead ∨ (s.dqAt q).room (beatsOf x.len)) ∧ !s.lineHeld x.off x.len then
      let r := s.linesRead (s.acting p.hdr) x.isRead x.off x.len lines
      r.1.modDq q fun d => { d with pushes := d.pushes.map fun y => if y = x then { y with got := some r.2 } else y }
    else s

/-- The push at the head may complete (R239). -/
def State.pushReady (s : State) (d : Dq) (x : DqPush) : Bool :=
  let c := s.chAt (s.ddrLoc x.off).1
  !c.enabled || (!c.selfRefresh && s.running .mem && !s.lineHeld x.off x.len && (!x.reads || x.got.isSome) &&
    (x.isRead || !d.ackWrites || d.room 1))

/-- The 64 B that acknowledge a write (R239). -/
def ackBeat (o : Nat) (e : Err) : List Byte := leBytes (o + 2 ^ 64 * e.code) 64

/-- The head push completes: a READ deposits its packet, a WRITE takes effect and may acknowledge. On a channel that has
been disabled meanwhile it is POISON (notes/assumptions/50.md). -/
def State.pushComplete (s : State) (q : Nat) : State :=
  let d := s.dqAt q
  match d.pushes with
  | [] => s
  | x :: r =>
    if !s.pushReady d x then s
    else
      let off := !(s.chAt (s.ddrLoc x.off).1).enabled
      let bad := x.got.getD []
      let poison := off || !bad.isEmpty
      let keep := x.isRead || d.ackWrites
      let data := if x.isRead then (if poison then [] else s.readDdr x.off x.len)
        else ackBeat x.off (if poison then .poison else .ok)
      let s := if x.isRead || off then s else s.writeDdr x.off x.pkt.data bad
      let written := if x.isRead || off then 0 else (lineParts (x.len / 64 + 2) x.off x.len).length - bad.length
      let s := s.modDq q fun d =>
        Dq.addBeats
          { d with
            pushes := r, outstanding := d.outstanding - 1
            unread := if keep then d.unread + 1 else d.unread, free := if keep then d.free else d.free + 1
            packets := if keep then d.packets ++ [{ poison := x.isRead && poison, data := data }] else d.packets
            err := if !keep && poison then setBit d.err 1 true else d.err } written
      (s.raiseIf (!keep && poison) .memDqWriteErr (BitVec.ofNat 32 q)).dqSettle q

/-- A wait reaches its queue (R240). -/
def State.dqWait (s : State) (q : Nat) (p : Packet) : State :=
  let d := s.dqAt q
  if p.hdr.bytes % 64 ≠ 0 then s.respond p .decode []
  else if s.acting p.hdr ≠ d.owner then (s.denyOwner p.hdr 31 true).respond p .accessDenied []
  else if d.waits.isEmpty ∧ !d.packets.isEmpty then s.takeData q p
  else if d.outstanding = 0 then s.respond p d.nothing []
  else (s.modDq q fun d => { d with waits := d.waits ++ [p] }).dqSettle q

/-- What remains of the head packet is discarded; the timer restarts (R241, R242). -/
def State.dropHead (s : State) (q : Nat) : State :=
  if (s.dqAt q).packets.isEmpty then s.dqTimer q true else (s.modDq q Dq.popPacket).dqTimer q true

/-- A drop through the queue window (R241). -/
def State.dqDrop (s : State) (q : Nat) (p : Packet) : State :=
  if s.acting p.hdr ≠ (s.dqAt q).owner then (s.denyOwner p.hdr 31 false).respond p .accessDenied [] else (s.dropHead q).respond p .ok []

/-- A request to a queue window is a wait or a drop; any other completes with DECODE (chapter 9, "Wait and drop"). -/
def windowForm (h : Hdr) (o : Nat) : Bool := (h.isRead && o == 0) || (h.isWrite && o == 0x40 && h.bytes == 8)

/-- The queue a window address names. -/
def windowQueue (h : Hdr) : Nat := (h.addr.toNat - 0x14000000000) / 0x10000

/-- `MEM_DQ_CMD_q`: DROP acts for master 0 and is ignored from others (R241; notes/assumptions/50.md). -/
def State.dqCmd (s : State) (m : MasterId) (q : Nat) (v : Word) : State := if v.getLsbD 0 ∧ m = 0 then s.dropHead q else s

/-- A write to `MEM_DQ_CFG_q` (R243): ENABLE, ACK_WRITES and OWNER. -/
def State.dqCfg (s : State) (q : Nat) (v : Word) : State :=
  s.modDq q fun d => { d with enable := v.getLsbD 0, ackWrites := v.getLsbD 1, owner := BitVec.ofNat 6 (field v 8 6) }

/-! ## Remap and retirement (R232 to R234) -/

/-- A write to `MEM_REMAP_CMD`. -/
def State.memRemapCmd (s : State) (v : Word) : State :=
  if v.getLsbD 31 then
    let c := field v 0 2
    let e := field v 2 4
    let k := s.chAt c
    let line := s.mem.rmLine.toNat
    let why := if (k.remap.getD e {}).valid || k.spentLines.getLsbD e then 1 else if s.chLines c ≤ line then 2
      else if !k.enabled || k.selfRefresh then 3 else if s.mem.copy.isSome || s.mem.rmPersist then 5 else 0
    s.modMem fun x =>
      { x with rmResult := BitVec.ofNat 3 why, copy := if why = 0 then some (c, e, line, v.getLsbD 6) else x.copy }
  else s

/-- The copy ends: the line is in its store, the entry VALID, and the accesses held go on. -/
def State.memCopyDone (s : State) (read : LineRead) : State :=
  match s.mem.copy with
  | none => s
  | some (c, e, line, persist) =>
    let old := s.lineEntry c line
    let k := s.chAt c
    let bad := match old with | some i => k.storeBad.getLsbD i | none => LineRead.bad read
    let o := (List.range 4).foldl (fun o j => if j < c ∧ !s.mem.interleave then o + s.chGiB j * 2 ^ 30 else o) 0
    let n := s.populated.length
    let home := if s.mem.interleave then line / 64 * (4096 * n) + (s.populated.idxOf c) * 4096 + line % 64 * 64 else o + 64 * line
    let data := s.readLine home 64
    let s := s.modCh c fun k =>
      { k with
        spentLines := match old with | none => k.spentLines | some j => setBit k.spentLines j true
        remap := remapSet k.remap 16 e line false, storeBad := setBit k.storeBad e bad
        store := k.store.fill 0 (64 * e) 64 fun j => data.getD j 0 }
    let s := s.modMem fun x => { x with copy := none, rmResult := 0, rmPersist := persist }
    let s := s.raise .memRemapDone (ofFields [(0, c), (2, e)])
    let s := if persist then s.modEvt fun x => x.queueUpd (.mem c e line) else s
    s.portServe 64 c

/-- A write to `MEM_RETIRE_HINT`; one is handled at a time (notes/assumptions/50.md). -/
def State.retireHint (s : State) (v : Word) : State :=
  if v.getLsbD 31 ∧ !s.mem.retireBusy then
    let page := field v 0 26
    if s.ddrBytes ≤ 4096 * page then s.modMem fun x => { x with retire := 2 }
    else (s.modMem fun x => { x with retireBusy := true }).modEvt fun x => x.queueUpd (.retire page)
  else s

/-! ## Registers -/

/-- A bit per channel. -/
def State.chBits (s : State) (f : Channel → Bool) : Nat := (List.range 4).foldl (fun a c => if f (s.chAt c) then a + 2 ^ c else a) 0

/-- A register of channel block c. -/
def State.chRead (s : State) (c o : Nat) : Option Word :=
  let k := s.chAt c
  if o = 0 then some k.cfg
  else if o = 4 then some k.ceCount
  else if o = 8 then some k.ueCount
  else if o = 0xC then some k.ueRepeat
  else if o = 0x10 then some (match k.ceLast with | none => 0 | some (l, _, _) => ofFields [(0, l), (31, 1)])
  else if o = 0x14 then some (match k.ceLast with | none => 0 | some (_, b, y) => ofFields [(0, b.toNat), (4, y.toNat)])
  else if o = 0x18 then some (ofFields [(0, k.bucket.toNat)])
  else if o = 0x1C then some (ofFields [(0, k.thresh.toNat), (16, k.leak.toNat)])
  else if o = 0x20 then some (ofFields [(0, k.interval.toNat), (31, k.patrolEn.toNat)])
  else if o = 0x24 then some (BitVec.ofNat 32 k.patrolPos)
  else if o = 0x28 then some k.patrolLap
  else if 0x80 ≤ o ∧ o < 0xC0 then some (k.remap.getD ((o - 0x80) / 4) {}).word
  else none

/-- A register of queue block q. -/
def State.dqRead (s : State) (q o : Nat) : Option Word :=
  let d := s.dqAt q
  if o = 0 then some (ofFields [(0, d.enable.toNat), (1, d.ackWrites.toNat), (8, d.owner.toNat), (16, d.rspBeats.toNat)])
  else if o = 4 then
    some (ofFields [(0, d.free), (8, d.outstanding), (16, d.unread), (24, (!d.waits.isEmpty).toNat), (25, d.stale.toNat)])
  else if o = 8 then some (ofFields [(0, d.staleLimit.toNat)])
  else if o = 0xC then some 0
  else if o = 0x10 then some (BitVec.ofNat 32 (s.waitCycles q))
  else if o = 0x14 then some (BitVec.ofNat 16 (s.waitCycles q / 2 ^ 32)).toNat
  else if o = 0x18 then some (BitVec.ofNat 32 d.beats.toNat)
  else if o = 0x1C then some (BitVec.ofNat 32 (d.beats.toNat / 2 ^ 32))
  else if o = 0x20 then some (ofFields [(0, d.err.toNat)])
  else none

/-- A MEM register at an offset of its block (Table 9.4). -/
def State.memRead (s : State) (o : Nat) : Option Word :=
  let m := s.mem
  if o = 0 then
    some (ofFields [(0, s.chBits (·.enabled)), (4, s.chBits (·.selfRefresh)), (8, s.chBits (·.powerDown)), (12, m.interleave.toNat)])
  else if o = 0x40 ∨ o = 0x50 then some 0
  else if o = 0x44 then some (ofFields [(0, m.rmLine.toNat)])
  else if o = 0x48 then some (ofFields [(0, (m.copy.isSome || m.rmPersist).toNat), (1, m.rmResult.toNat)])
  else if o = 0x54 then some (ofFields [(0, m.retire.toNat), (31, m.retireBusy.toNat)])
  else if 0x1000 ≤ o ∧ o < 0x1400 then s.chRead ((o - 0x1000) / 0x100) (o % 0x100)
  else if 0x8000 ≤ o ∧ o < 0x9000 then s.dqRead ((o - 0x8000) / 0x40) (o % 0x40)
  else none

/-- What a read of an RC register clears (Table 9.4). -/
def State.memClear (s : State) (o : Nat) : State :=
  if 0x1000 ≤ o ∧ o < 0x1400 then
    s.modCh ((o - 0x1000) / 0x100) fun k =>
      if o % 0x100 = 4 then { k with ceCount := 0 } else if o % 0x100 = 8 then { k with ueCount := 0 }
      else if o % 0x100 = 0xC then { k with ueRepeat := 0 } else k
  else s

/-- A write to a register of channel block c; an INTERVAL below 16 is not taken. -/
def State.chWrite (s : State) (c o : Nat) (v : Word) : State :=
  if o = 0x1C then s.bucketCfg (.ddr (Fin.ofNat 4 c)) v
  else if o = 0x20 then
    s.modCh c fun k => { k with interval := if 16 ≤ field v 0 24 then BitVec.ofNat 24 v.toNat else k.interval, patrolEn := v.getLsbD 31 }
  else s

/-- A write to a register of queue block q. -/
def State.dqWrite (s : State) (m : MasterId) (q o : Nat) (v : Word) : State :=
  if o = 0 then s.dqCfg q v
  else if o = 8 then s.modDq q fun d => { d with staleLimit := BitVec.ofNat 24 v.toNat }
  else if o = 0xC then s.dqCmd m q v
  else if o = 0x20 then s.modDq q fun d => { d with err := d.err &&& ~~~BitVec.ofNat 4 v.toNat }
  else s

/-- A write to a MEM register (Table 9.4). -/
def State.memWrite (s : State) (m : MasterId) (o : Nat) (v : Word) : Option State :=
  if (s.memRead o).isNone then none
  else if o = 0x40 then some (s.memRemapCmd v)
  else if o = 0x44 then some (s.modMem fun x => { x with rmLine := BitVec.ofNat 30 v.toNat })
  else if o = 0x50 then some (s.retireHint v)
  else if 0x1000 ≤ o ∧ o < 0x1400 then some (s.chWrite ((o - 0x1000) / 0x100) (o % 0x100) v)
  else if 0x8000 ≤ o then some (s.dqWrite m ((o - 0x8000) / 0x40) (o % 0x40) v)
  else some s

/-! ## Commands -/

/-- DDR_PORT_REQUEST (R228, R235): refused, back-pressured by a full port queue, or queued. -/
def execDdrPortRequest (p : Packet) (s : State) : Host.Outcome State Fault Refusal :=
  .next (s.whenOn fun s =>
    let c := (s.ddrLoc (ddrOff p.hdr)).1
    if !(p.hdr.isRead || p.hdr.isWrite) || !(s.chAt c).enabled then (s.takeTarget p).respond p .decode []
    else
      let s := (s.reach .mem).1
      if 64 ≤ (s.chAt c).portQ.length then s
      else ((s.takeTarget p).modCh c fun k => { k with portQ := k.portQ ++ [p] }).portServe 64 c)

/-- DDR_READ_RETURN (R229, R230, R239): for the head of a port queue, or for a push. -/
def execDdrReadReturn (p : Packet) (lines : List LineRead) (s : State) : Host.Outcome State Fault Refusal :=
  .next (s.whenOn fun s =>
    if p.hdr.isPush then s.pushReturn (pushQueue p.hdr) p lines
    else
      let c := (s.ddrLoc (ddrOff p.hdr)).1
      match (s.chAt c).portQ with
      | [] => s
      | x :: _ =>
        if sameReq x p && (s.chAt c).enabled && !(s.chAt c).selfRefresh && s.running .mem && !s.lineHeld (ddrOff x.hdr) x.hdr.bytes then
          s.portReturn c x lines
        else s)

/-- PATROL_READ (R231). -/
def execPatrolRead (c : Fin 4) (line : LineRead) (s : State) : Host.Outcome State Fault Refusal :=
  .next (let k := s.chAt c
    if k.enabled && !k.selfRefresh && k.patrolEn then
      let s := s.advanceTo (k.patrolLast + k.interval.toNat)
      let s := (s.lineRead none c k.patrolPos line).1
      let s := s.modCh c fun k => { k with patrolPos := k.patrolPos + 1, patrolLast := s.now }
      if s.chLines c ≤ k.patrolPos + 1 then
        s.modCh c fun k =>
          { k with patrolPos := 0, patrolLap := BitVec.ofNat 32 ((s.now - k.patrolAt) / 1000000), patrolAt := s.now }
      else s
    else s)

/-- MEM_REMAP (R232). -/
def execMemRemap (m : MasterId) (val : Word) (s : State) : Host.Outcome State Fault Refusal :=
  .next (s.regWrite m 0x800040 fun s => s.memRemapCmd (val ||| 0x80000000))

/-- MEM_REMAP_COPY_DONE (R232, R233): `line` is what its read found. -/
def execMemRemapCopyDone (line : LineRead) (s : State) : Host.Outcome State Fault Refusal := .next (s.memCopyDone line)

/-- MEM_RETIRE_HINT (R234). -/
def execMemRetireHint (m : MasterId) (val : Word) (s : State) : Host.Outcome State Fault Refusal :=
  .next (s.regWrite m 0x800050 fun s => s.retireHint (val ||| 0x80000000))

/-- DQ_PUSH (R237, R238). -/
def execDqPush (p : Packet) (s : State) : Host.Outcome State Fault Refusal :=
  .next (s.whenOn fun s => (((s.reach .mem).1).takeTarget p).push p)

/-- DQ_PUSH_COMPLETE (R239). -/
def execDqPushComplete (q : Fin 64) (s : State) : Host.Outcome State Fault Refusal := .next (s.whenOn fun s => s.pushComplete q)

/-- DQ_WAIT (R240). -/
def execDqWait (p : Packet) (s : State) : Host.Outcome State Fault Refusal :=
  .next (s.whenOn fun s => (s.takeTarget p).dqWait (windowQueue p.hdr) p)

/-- DQ_DROP (R241). -/
def execDqDrop (p : Packet) (s : State) : Host.Outcome State Fault Refusal :=
  .next (s.whenOn fun s => (s.takeTarget p).dqDrop (windowQueue p.hdr) p)

/-- DQ_CMD_DROP (R241). -/
def execDqCmdDrop (m : MasterId) (q : Fin 64) (val : Word) (s : State) : Host.Outcome State Fault Refusal :=
  .next (s.regWrite m (BitVec.ofNat 48 (0x80800C + 0x40 * q.val)) fun s => s.dqCmd m q (val ||| 1))

/-- DQ_STALE_TIMEOUT (R242). -/
def execDqStaleTimeout (q : Fin 64) (s : State) : Host.Outcome State Fault Refusal :=
  .next (let d := s.dqAt q
    match d.staleFrom with
    | none => s
    | some t =>
      if d.staleLimit = 0 ∨ d.stale then s
      else
        ((s.advanceTo (t + d.staleLimit.toNat)).modDq q fun d => { d with stale := true }).raise .memDqStale
          (ofFields [(0, q.val), (8, d.unread)]))

/-- DQ_CFG_WRITE (R243). -/
def execDqCfgWrite (m : MasterId) (q : Fin 64) (val : Word) (s : State) : Host.Outcome State Fault Refusal :=
  .next (s.regWrite m (BitVec.ofNat 48 (0x808000 + 0x40 * q.val)) fun s => s.dqCfg q val)

/-- WAITCYC_WRAP (R244): the counter reaches 2^48 cycles. -/
def execWaitcycWrap (q : Fin 64) (s : State) : Host.Outcome State Fault Refusal :=
  .next (match (s.dqAt q).waitFrom with
    | none => s
    | some t => (s.advanceTo (t + s.nocNs (2 ^ 48 - (s.dqAt q).waitcyc.toNat))).syncWait q true)

end Sys2Proof.Machine
end

