-- ==== Sys2Proof/Machine/Loader.lean ====
section
/-! DEFINITION. The den loader's fetch, and the end of a load and of a reload (R146, R147, R174). -/

namespace Sys2Proof.Machine

/-- How n bytes at a place of an engine's access answer: OK where the Burrow's banks are ON, the DDR channels enabled, or a TCM
holds them, and the error of the first part that none serves (R146, R292). -/
def State.serves (s : State) (p : Place) (n : Nat) : Err :=
  match p with
  | .burrow o =>
    if 0x4000000 < o + n then .decode
    else if (List.range (min 32 ((o % 256 + n + 255) / 256))).all fun i => (s.bankAt (bankOf (o + 256 * i))).state == .on then .ok
    else .bankOff
  | .ddr o =>
    if s.ddrBytes < o + n then .decode
    else if (List.range ((o % 4096 + n + 4095) / 4096)).all fun i => (s.chAt (s.ddrLoc (o + 4096 * i)).1).enabled then .ok
    else .decode
  | .tcm k o => if (if k = 0 then 0x40000 else 0x80000) < o + n then .decode else .ok
  | _ => .ok

/-- An engine, as master m, reads n bytes from a local address (R146, R292). The Burrow, DDR and the TCMs give what they hold;
any other place, host outbound above all, gives `got` (network error and bytes). A read that the network fails on its way
fails here too. -/
def State.engineRead (s : State) (m : MasterId) (src : Addr) (n : Nat) (got : Err × List Byte) : Err × List Byte :=
  match s.place src with
  | none => (.decode, [])
  | some p =>
    if (match s.target src p with | some t => s.denied m t true false | none => false) then (.accessDenied, [])
    else if got.1 ≠ .ok then (got.1, [])
    else if s.serves p n ≠ .ok then (s.serves p n, [])
    else match p with
      | .burrow o => (.ok, Memory.readN s.ram (burrowAddr o) n)
      | .ddr o => (.ok, s.readDdr o n)
      | .tcm k o => (.ok, Memory.readN s.ram (tcmBase k + o) n)
      | _ => got

/-- The answer an engine's write of n bytes gets, `got` being that of a place outside this device's memories and of the way
there. -/
def State.engineAnswer (s : State) (m : MasterId) (dst : Addr) (n : Nat) (got : Err) : Err :=
  match s.place dst with
  | none => .decode
  | some p =>
    if protectedWrite m dst || (match s.target dst p with | some t => s.denied m t false true | none => false) then .accessDenied
    else if got ≠ .ok then got
    else s.serves p n

/-- A store of an engine that has been answered OK, in a memory of this device; none for any other place. -/
def State.engineWrite (s : State) (dst : Addr) (l : List Byte) : Option State :=
  match s.place dst with
  | some (.burrow o) => some (s.modRam fun r => r.writeN (burrowAddr o) l)
  | some (.tcm k o) => some (s.modRam fun r => r.writeN (tcmBase k + o) l)
  | some (.ddr o) => some (s.writeDdr o l [])
  | _ => none

/-- An access of an engine that the access tables deny is counted (R355). -/
def State.noteDenied (s : State) (m : MasterId) (a : Addr) (wr : Bool) : State :=
  match (s.place a).bind (s.target a) with
  | some t => if (wr && protectedWrite m a) || s.denied m t (!wr) wr then s.deny m t wr false else s
  | none => s

/-- The den loader reads as master 5 (R146). -/
def State.fetchImage (s : State) (src : Addr) (n : Nat) (got : Err × List Byte) : Err × List Byte := s.engineRead 5 src n got

/-- CFG cycles of a full plane, in ns (R146). -/
def planeNs : Nat := 393216

/-- The frames of a plane image are written, upsets strike it, and it is read back (R146). The result is that of R147. -/
def State.writeAndCheck (s : State) (d : Nat) (p : Bool) (len : Nat) (bytes : List Byte) (readback : Bool)
    (upsets : List (Fin 196608 × BitVec 72)) : State × Nat :=
  let s := (s.writePlaneImage d p bytes).strike d p upsets
  (s, s.planeBody len bytes (!readback || s.readsBack d p))

/-- A load finishes with what the fetch and the readback gave (R146, R147). -/
def State.loadDone (s : State) (out : LoadOutcome) : State :=
  let d := s.den.loadDen.toNat
  let p := !(s.denAt d).active
  let len := s.den.curLen.toNat
  let f := s.fetchImage s.den.curSrc len (out.fetch, out.bytes)
  if f.1 ≠ .ok then
    let s := s.noteDenied 5 s.den.curSrc false
    let k := s.partFrames
    (s.useFree.writePart d p k.toNat).loadEnds 8 f.1.code k
  else
    let h := s.planeHeader d len f.2
    if h ≠ 0 then s.loadEnds h 0 0
    else
      let s := s.advanceTo (s.den.loadAt + planeNs * (1 + s.den.readback.toNat))
      let r := s.writeAndCheck d p len f.2 s.den.readback out.upsets
      let s := r.1.loadEnds r.2 0 3072
      if r.2 = 0 then
        let id := byteAt f.2 0x12
        let s := s.modDen d fun n =>
          { n with shadow := .ready, shadowId := BitVec.ofNat 8 id, shadowWork := imgFlag f.2 3, src := s.den.curSrc }
        let s := s.modBdg fun b => { b with sources := b.sources.set (false, 0) (2 * d + p.toNat) (true, s.den.curSrc) }
        s.raise .denLoadDone (ofFields [(0, d), (8, id)])
      else s

/-- The reload's result, and the plane rewritten when the header checks pass (R147, R174). A den whose plane a reload has
written counts as reloaded, whatever the result (R177). -/
def State.reloadDone (s : State) (out : LoadOutcome) : State :=
  let d := s.bdg.rlDen.toNat
  let p := s.bdg.rlPlane
  let src := (s.bdg.sources.getD (2 * d + p.toNat) (false, 0)).2
  let hd := s.fetchImage src 4096 (out.fetch, out.bytes)
  let len := planeLen hd.2
  let f := s.fetchImage src len (out.fetch, out.bytes)
  let changed (s : State) : State := s.modDen d fun n => { n with changed := true }
  if hd.1 ≠ .ok then (s.noteDenied 5 src false).reloadEnds d 8
  else
    let h := s.planeHeader d len f.2
    if f.1 = .ok ∧ h ≠ 0 then s.reloadEnds d h
    else if f.1 ≠ .ok then
      let k := s.partFrames
      (changed (s.useFree.writePart d p k.toNat)).reloadEnds d 8
    else
      let s := s.advanceTo (s.bdg.rlAt + 2 * planeNs)
      let r := (changed s).writeAndCheck d p len f.2 true out.upsets
      let s := if r.2 = 0 then
          (r.1.modDen d fun n => { n with activeId := BitVec.ofNat 8 (byteAt f.2 0x12) }).modTbs fun t =>
            { t with doneMask := setBit t.doneMask d (imgFlag f.2 3) }
        else r.1
      s.reloadEnds d r.2

/-! ## Commands -/

/-- DEN_LOAD_COMPLETE (R147). -/
def execDenLoadComplete (out : LoadOutcome) (s : State) : Host.Outcome State Fault Refusal :=
  .next (s.whenOn fun s => if s.den.loadBusy then s.loadDone out else s)

/-- RELOAD_COMPLETE (R174). -/
def execReloadComplete (out : LoadOutcome) (s : State) : Host.Outcome State Fault Refusal :=
  .next (if s.on && s.bdg.rlBusy then s.reloadDone out else s)

end Sys2Proof.Machine
end

