-- ==== Sys2Proof/Machine/Tick.lean ====
section
/-! DEFINITION. The timed action table, its staging lock, TICK_DONE, hold requests, election's end and holdover, with the TBS
registers and the commands of this family (chapter 1). The tick edge itself is in Edge.lean. -/

namespace Sys2Proof.Machine

/-! ## Entries (R28 to R30, R36, R37) -/

/-- The tick number or system time at which an entry is due; none while an indefinite hold keeps its edge away. -/
def State.dueAt (s : State) : Due → Option Nat
  | .time t => some t.toNat
  | .tick n =>
    if n.toNat ≤ s.tbs.tick.toNat then some 0
    else ((s.edgeFrom 0).map fun x => 256 * (x.1 + (n.toNat - x.2) * s.tbs.period.toNat))
  | .edgeAfter t => (s.edgeFrom ((t.toNat + 255) / 256)).map fun x => 256 * x.1

/-- The staged entry (R29). -/
def Tbs.staged (t : Tbs) : ActEntry :=
  let cls := BitVec.ofNat 3 (field t.w0 0 3)
  { cls := cls, late := BitVec.ofNat 2 (field t.w0 3 2), target := BitVec.ofNat 8 (field t.w0 8 8), arg := t.w1
    due := if cls.toNat < 2 then .time (BitVec.ofNat 72 (256 * (t.w2.toNat + t.w3.toNat * 2 ^ 32)))
      else .tick (BitVec.ofNat 48 (t.w2.toNat + t.w3.toNat * 2 ^ 32)) }

/-- The RANGE check of R30 and Table 1.1. -/
def ActEntry.inRange (e : ActEntry) : Bool :=
  e.late != 3 &&
    match e.cls.toNat with
    | 0 => decide (e.target.toNat < 16) && (!e.arg.getLsbD 1 || field e.arg 8 16 != 0)
    | 2 => decide (e.target.toNat < 48)
    | 3 => decide (e.target.toNat < 16)
    | 4 => decide (e.target.toNat < 4)
    | 5 => decide (200 ≤ field e.arg 0 24)
    | _ => true

/-- The entry is past at the arming instant (R36). -/
def State.isPast (s : State) (e : ActEntry) : Bool :=
  match s.dueAt e.due with
  | none => false
  | some t => decide (t < s.time.sys.toNat + 40 * 256)

/-- Entries in use. -/
def State.freeIndex (s : State) : Option Nat := (List.range 256).find? fun i => (s.actAt i).state == .free

/-- The result of a command (Table 1.6). -/
def State.actResult (s : State) (code i gen : Nat) : State :=
  s.modTbs fun t => { t with result := ofFields [(0, code), (8, i), (16, gen)] }

/-- What an armed entry starts besides: a drain window that is open already (R148), a notice (R270). -/
def State.armedEffects (s : State) (e : ActEntry) : State :=
  match e.cls.toNat with
  | 2 => s.openDrain e.target.toNat
  | 5 =>
    match e.due with
    | .tick n => s.sendNotice (.period n (BitVec.ofNat 24 e.arg.toNat))
    | .edgeAfter t =>
      match s.edgeFrom ((t.toNat + 255) / 256) with
      | some (_, n) => s.sendNotice (.period (BitVec.ofNat 48 n) (BitVec.ofNat 24 e.arg.toNat))
      | none => s
    | .time _ => s
  | _ => s

/-- Place an entry at index i (R33). -/
def State.storeEntry (s : State) (i : Nat) (e : ActEntry) : State :=
  s.modAct i fun o => { e with state := .armed, used := true, gen := if o.used then o.gen + 1 else 0 }

/-- ARM (R33, R36, R37): CLASS, RANGE, ROLE, then the LATE policy, then FULL. Where nothing is stored, INDEX and GEN of
the result are 0: Table 1.6 gives them for an entry that is armed or named only (DESIGN CHOICE, notes/assumptions/134.md). -/
def State.armEntry (s : State) (m : MasterId) : State :=
  let e := s.tbs.staged
  if 6 ≤ e.cls.toNat then s.actResult 2 0 0
  else if !e.inRange then s.actResult 3 0 0
  else if e.cls = 5 ∧ s.follower then s.actResult 4 0 0
  else
    let past := s.isPast e
    if past ∧ e.late = 0 then
      (s.actResult 5 0 0).raiseBy (some m) .tbsLateDrop (ofFields [(8, e.cls.toNat)])
    else match s.freeIndex with
      | none => s.actResult 1 0 0
      | some i =>
        let due := if !past then e.due
          else if e.late = 2 ∧ e.cls.toNat < 2 then .time s.edge40 else .edgeAfter s.edge40
        let e := { e with wasLate := past, due := due }
        let s := s.storeEntry i e
        let s := s.actResult (if past then 6 else 0) i (s.actAt i).gen.toNat
        let s := if past then s.raiseBy (some m) .tbsLateRun (ofFields [(0, i), (8, e.cls.toNat), (11, 1)]) else s
        s.armedEffects e

/-- The effects of a cancelled entry: the drain window closes, followers hear of the PERIOD (R148, R270). -/
def State.cancelEffects (s : State) (e : ActEntry) : State :=
  match e.cls.toNat with
  | 2 => s.closeDrain e.target.toNat
  | 5 =>
    match e.due with
    | .tick n => s.sendNotice (.period n s.tbs.period)
    | .edgeAfter t =>
      match s.edgeFrom ((t.toNat + 255) / 256) with
      | some (_, n) => s.sendNotice (.period (BitVec.ofNat 48 n) s.tbs.period)
      | none => s
    | .time _ => s
  | _ => s

/-- CANCEL (R34). -/
def State.cancelEntry (s : State) (i : Nat) (gen : Byte) : State :=
  let e := s.actAt i
  if e.state = .free ∨ e.gen ≠ gen then s.actResult 7 i e.gen.toNat
  else
    let soon := e.state == .armed && match s.dueAt e.due with | none => false | some t => decide (t < s.time.sys.toNat + 40 * 256)
    if soon then s.actResult 8 i e.gen.toNat
    else ((s.modAct i fun e => { e with state := .free, outcome := 4 }).actResult 0 i e.gen.toNat).cancelEffects e

/-- QUERY (R35). -/
def State.queryEntry (s : State) (i : Nat) : State :=
  let e := s.actAt i
  s.modTbs fun t =>
    { t with result := ofFields [(8, i), (16, e.gen.toNat), (24, (e.state != .free).toNat), (25, e.outcome.toNat)] }

/-! ## The staging lock (R31) -/

/-- Who holds the lock now: it is given back 10 µs after it was granted. -/
def State.lockHolder (s : State) : Option MasterId := if s.tbs.lockAt + 10000 ≤ s.now then none else s.tbs.lock

/-- A read of `TBS_ACT_LOCK`; the holder itself reads 1 again (notes/assumptions/52.md). -/
def State.lockRead (s : State) (m : MasterId) : State × Word :=
  match s.lockHolder with
  | none => (s.modTbs fun t => { t with lock := some m, lockAt := s.now }, 1)
  | some h => (s, if h = m then 1 else 0)

/-- A staging write or a command of a master that holds the lock; BUSY for any other. -/
def State.locked (s : State) (m : MasterId) (k : State → State) : State × Err :=
  if s.lockHolder = some m then (k s, .ok) else (s, .busy)

/-- A write to `TBS_ACT_W0` to `W3`. -/
def State.stageWrite (s : State) (w : Nat) (v : Word) : State :=
  s.modTbs fun t =>
    match w with
    | 0 => { t with w0 := v &&& 0xFF1F }
    | 1 => { t with w1 := v }
    | 2 => { t with w2 := v }
    | _ => { t with w3 := v }

/-- A write to `TBS_ACT_CMD` (Table 1.5); it releases the lock. -/
def State.actCmd (s : State) (m : MasterId) (v : Word) : State :=
  (match field v 0 2 with
    | 1 => s.armEntry m
    | 2 => s.cancelEntry (field v 8 8) (BitVec.ofNat 8 (field v 16 8))
    | 3 => s.queryEntry (field v 8 8)
    | _ => s).modTbs fun t => { t with lock := none }

/-! ## Running actions (R38 to R41) -/

/-- Two entries name the same target: PERIOD and EVENT ignore TARGET (R40; notes/assumptions/53.md). -/
def sameTarget (a b : ActEntry) : Bool := a.cls == b.cls && (a.cls == 1 || a.cls == 5 || a.target == b.target)

/-- An action runs, and its entry is free (R41). -/
def State.finish (s : State) (i : Nat) : State :=
  s.modAct i fun e => { e with state := .free, outcome := if e.wasLate then 3 else 1 }

/-- An action is refused (R40). -/
def State.refuse (s : State) (i : Nat) : State :=
  let e := s.actAt i
  (s.modAct i fun e => { e with state := .free, outcome := 5 }).raise .tbsActionConflict (ofFields [(0, i), (8, e.cls.toNat)])

/-- A TRIG or EVENT action acts (R28, R41). -/
def State.timedEffect (s : State) (e : ActEntry) : State :=
  if e.cls = 0 then s.runTrig e.target.toNat e.arg else s.raise .tbsAction e.arg

/-- TRIG and EVENT actions run in RUN and SLEEP only; elsewhere those that fall due wait (R38, R88). -/
def State.actionsWait (s : State) : Bool := s.mode != .run && s.mode != .sleep

/-- The system time, in 1/256 ns, at which an armed time-class entry is due. -/
def ActEntry.timeDue (e : ActEntry) : Option Nat :=
  match e.due with
  | .time t => if e.state = .armed ∧ e.cls.toNat < 2 then some t.toNat else none
  | _ => none

/-- The earlier of two due entries: by system time, then class, then index (R39). -/
def dueFirst (best : Option (Nat × Nat)) (key i : Nat) : Option (Nat × Nat) :=
  match best with
  | some (k, j) => if key < k then some (key, i) else some (k, j)
  | none => some (key, i)

/-- The armed time-class entry that is first in the order of R39 among those due at or before t. -/
def State.firstDue (s : State) (t : Nat) : Option Nat :=
  (s.tbs.table.cells.foldl (fun best c =>
    match c.2.timeDue with
    | some d => if d ≤ t then dueFirst best (8 * d + c.2.cls.toNat) c.1 else best
    | none => best) none).map (·.2)

/-- The entry at index i falls due at its system time: with the others of its target at that time it waits, or the lowest
index runs and the others are refused (R38 to R41). -/
def State.runAtTime (s : State) (i : Nat) : State :=
  let e := s.actAt i
  match e.timeDue with
  | some t =>
    let s := s.advance (s.cyclesTo t)
    let l := (s.tbs.table.cells.filter fun c => c.2.timeDue == some t && sameTarget c.2 e).map (·.1)
    match l with
    | [] => s
    | j :: r =>
      if s.actionsWait then (j :: r).foldl (fun s j => s.modAct j fun e => { e with state := .waiting }) s
      else
        let x := s.actAt j
        r.foldl State.refuse ((s.finish j).timedEffect x)
  | none => s

/-- Every time-class entry due at or before system time t runs, each at its own time, in the order of R39. An entry leaves
the armed state each time, so 256 rounds are enough. -/
def State.runDue : Nat → Nat → State → State
  | 0, _, s => s
  | n + 1, t, s =>
    match s.firstDue t with
    | none => s
    | some i => State.runDue n t (s.runAtTime i)

/-! ## TICK_DONE (R25) -/

/-- A declared source signals TICK_DONE: for this tick, or for the next when the edge is less than 4 ns away. -/
def State.signalDone (s : State) (src : Nat) : State :=
  s.modTbs fun t =>
    if t.doneMask.getLsbD src then
      if 4 ≤ s.nextEdgeLocal - s.now then { t with done := setBit t.done src true } else { t with doneNext := setBit t.doneNext src true }
    else t

/-! ## Hold requests (R42, R43, R270) -/

/-- Requests of one TMB cycle stay in ascending DEVICE_NUM order (R43). -/
def insertHold (q : HoldReq) : List HoldReq → List HoldReq
  | [] => [q]
  | x :: l => if x.time = q.time ∧ q.dev.toNat < x.dev.toNat then q :: x :: l else x :: insertHold q l

/-- The master accepts a hold request, to take effect under R11, and gives notice of its edge. -/
def State.acceptHold (s : State) (dev : Byte) (count : BitVec 16) (indef : Bool) : State :=
  let e := s.tbs.nextEdge
  let edge := if s.sysNs + 40 ≤ e.toNat then e else e + BitVec.ofNat 64 s.tbs.period.toNat
  (s.modTbs fun t => { t with holdQ := insertHold { time := s.now, dev := dev, count := count, indef := indef } t.holdQ }).sendNotice
    (.hold edge count indef)

/-- The link a routing entry names, if it is UP. -/
def State.routeLink (s : State) (dev : Byte) : Option Nat :=
  let r := (s.spn.route.getD dev.toNat 15).toNat
  if r < 8 ∧ (s.linkAt r).isUp then some r else none

/-- A hold request is applied on the master or forwarded to it; without a link toward it, it is lost
(notes/assumptions/54.md). A device whose election is still open applies it to its own edges, as a master would: R42 names
master and follower only (DESIGN CHOICE, notes/assumptions/135.md). -/
def State.requestHold (s : State) (origin : Byte) (count : BitVec 16) (indef : Bool) : State :=
  if s.follower then
    match s.routeLink s.tbs.masterNum with
    | some k => if (s.linkAt k).farCaps.getLsbD 0 then s.sendCtl k (.holdReq origin count indef) else s
    | none => s
  else s.acceptHold origin count indef

/-- The value of a `TBS_HOLD` write as a request. -/
def State.applyHold (s : State) (v : Word) : State :=
  s.requestHold s.tbs.devNum (BitVec.ofNat 16 v.toNat) (v.getLsbD 16)

/-- A write to `TBS_HOLD` (R42). -/
def State.holdWrite (s : State) (v : Word) : State :=
  let v := v &&& 0x1FFFF
  let s := s.modTbs fun t => { t with holdReg := v }
  if (s.mode = .sleep ∨ s.mode = .deep) ∧ s.hasSpan then s.modTbs fun t => { t with heldHold := some v } else s.applyHold v

/-! ## Election (R20 to R22, R267) -/

/-- The better of two candidates: MASTER above AUTO, then the lower DEVICE_NUM, then the lower HOPS (R269). -/
def better (a b : Bool × Byte × Byte × Option (Fin 8)) : Bool :=
  let rank (x : Bool × Byte × Byte × Option (Fin 8)) : Nat := x.1.toNat * 65536 + x.2.1.toNat * 256 + x.2.2.1.toNat
  decide (rank a < rank b)

/-- What this device offers: itself, or what it has heard (R269). -/
def State.candidate (s : State) : Option (Bool × Byte × Byte × Option (Fin 8)) :=
  let own : Bool × Byte × Byte × Option (Fin 8) := (s.tbs.imgRole == 2, s.tbs.devNum, 0, none)
  if s.tbs.imgRole = 1 then s.tbs.best
  else match s.tbs.best with | some b => if better b own then some b else some own | none => some own

/-- Election closes with a master, or the device keeps waiting (R20 to R22). -/
def State.closeElection (s : State) : State :=
  match s.candidate with
  | none => (s.modTbs fun t => { t with electAt := none, noMaster := some s.now }).raise .tbsNoMaster 0
  | some (_, n, _, none) =>
    s.modTbs fun t =>
      { t with electAt := none, noMaster := none, elected := true, role := 1, aligned := true, masterNum := n, offset := 0 }
  | some (auto, n, hops, some k) =>
    let lost := !auto && s.tbs.imgRole == 0
    let s := s.modTbs fun t =>
      { t with electAt := none, noMaster := none, elected := true, role := 2, masterNum := n, conflict := lost, lastMarker := s.now }
    (s.modSpn fun p => { p with upstream := some k, hops := hops.toNat }).raiseIf lost .tbsRoleConflict (BitVec.ofNat 32 n.toNat)

/-! ## Registers -/

/-- A TBS register at an offset of its block (Tables 1.2 to 1.6); `TBS_ACT_LOCK` shows what a read would be given. -/
def State.tbsRead (s : State) (m : MasterId) (o : Nat) : Option Word :=
  let t := s.tbs
  if o = 0 then
    some (ofFields [(0, t.role.toNat), (2, t.aligned.toNat), (3, t.holdActive.toNat), (4, t.conflict.toNat), (8, t.masterNum.toNat)])
  else if o = 4 then some (ofFields [(0, t.imgRole.toNat), (8, t.devNum.toNat)])
  else if o = 0x10 then some (BitVec.ofNat 32 s.sysNs)
  else if o = 0x14 then some (BitVec.ofNat 32 (s.sysNs / 2 ^ 32))
  else if o = 0x18 then some (ofFields [(0, s.time.sys.toNat % 256)])
  else if o = 0x20 then some (BitVec.ofNat 32 t.tick.toNat)
  else if o = 0x24 then some (BitVec.ofNat 32 (t.tick.toNat / 2 ^ 32))
  else if o = 0x28 then some (ofFields [(0, t.period.toNat)])
  else if o = 0x2C then some (BitVec.ofNat 32 t.lastEdge.toNat)
  else if o = 0x30 then some (BitVec.ofNat 32 (t.lastEdge.toNat / 2 ^ 32))
  else if o = 0x34 then some t.offset
  else if o = 0x40 then some t.holdReg
  else if o = 0x44 then some (ofFields [(0, t.holdLeft.toNat), (16, t.indef.toNat)])
  else if o = 0x50 then some (BitVec.ofNat 32 t.doneMask.toNat)
  else if o = 0x54 then some (BitVec.ofNat 32 (t.doneMask.toNat / 2 ^ 32))
  else if o = 0x58 ∨ o = 0x94 then some 0
  else if o = 0x60 then some (BitVec.ofNat 32 t.overrun.toNat)
  else if o = 0x64 then some (BitVec.ofNat 32 (t.overrun.toNat / 2 ^ 32))
  else if o = 0x68 then some t.overrunCount
  else if o = 0x80 then some (s.lockRead m).2
  else if o = 0x84 then some t.w0
  else if o = 0x88 then some t.w1
  else if o = 0x8C then some t.w2
  else if o = 0x90 then some t.w3
  else if o = 0x98 then some t.result
  else if o = 0x9C then some (ofFields [(0, ((List.range 256).filter fun i => (s.actAt i).state == .free).length)])
  else none

/-- What a read of an RC register changes (Table 1.2): the count clears, the lock is granted. -/
def State.tbsClear (s : State) (m : MasterId) (o : Nat) : State :=
  if o = 0x68 then s.modTbs fun t => { t with overrunCount := 0 }
  else if o = 0x80 then (s.lockRead m).1 else s

/-- A write to a TBS register (Table 1.2). -/
def State.tbsWrite (s : State) (m : MasterId) (o : Nat) (v : Word) : Option (State × Err) :=
  if (s.tbsRead m o).isNone then none
  else if o = 0x40 then some (s.holdWrite v, .ok)
  else if o = 0x58 then some (if v.getLsbD 0 then s.signalDone 49 else s, .ok)
  else if o = 0x60 then some (s.modTbs fun t => { t with overrun := t.overrun &&& ~~~BitVec.ofNat 50 v.toNat }, .ok)
  else if o = 0x64 then some (s.modTbs fun t => { t with overrun := t.overrun &&& ~~~BitVec.ofNat 50 (v.toNat * 2 ^ 32) }, .ok)
  else if 0x84 ≤ o ∧ o ≤ 0x90 then some (s.locked m fun s => s.stageWrite ((o - 0x84) / 4) v)
  else if o = 0x94 then some (s.locked m fun s => s.actCmd m v)
  else some (s, .ok)

/-! ## Commands -/

/-- TICK_DONE (R25, R153, R191): of a den gate that is not isolated, or of the loop channel, for which the network runs until
its work of the tick is done, but not past the next edge. -/
def execTickDone (src : Fin 49) (s : State) : Host.Outcome State Fault Refusal :=
  .next (if src.val = 48 then
      let s := s.netWait (s.nextEdgeLocal - s.now) fun t => t.loopDone
      if s.loopDone then s.signalDone 48 else s
    else if (s.denAt src).isolated || (s.denAt src).freeze.isSome then s else s.signalDone src)

/-- TBS_DONE_BRKB (R25). -/
def execTbsDoneBrkb (m : MasterId) (val : Word) (s : State) : Host.Outcome State Fault Refusal :=
  .next (s.regWrite m 0x58 fun s => if val.getLsbD 0 then s.signalDone 49 else s)

/-- ELECTION_CLOSE (R20 to R22). -/
def execElectionClose (s : State) : Host.Outcome State Fault Refusal :=
  .next (match s.tbs.electAt with
    | some t => if s.mode = .lock ∧ !s.tbs.elected then (s.advanceTo t).closeElection else s
    | none => s)

/-- TBS_NO_MASTER_REPEAT (R22). -/
def execTbsNoMasterRepeat (s : State) : Host.Outcome State Fault Refusal :=
  .next (match s.tbs.noMaster with
    | some t =>
      if s.mode = .lock then
        let s := s.advanceTo (t + 1000000000)
        (s.modTbs fun x => { x with noMaster := some s.now }).raise .tbsNoMaster 0
      else s
    | none => s)

/-- ACT_LOCK_READ (R31). -/
def execActLockRead (m : MasterId) (s : State) : Host.Outcome State Fault Refusal :=
  .next (s.access m 0x80 false fun s => (s.lockRead m).1.answer m .ok (s.lockRead m).2)

/-- ACT_LOCK_TIMEOUT (R31). -/
def execActLockTimeout (s : State) : Host.Outcome State Fault Refusal :=
  .next (if s.tbs.lock.isSome then (s.advanceTo (s.tbs.lockAt + 10000)).modTbs fun t => { t with lock := none } else s)

/-- ACT_STAGE_WRITE (R31). -/
def execActStageWrite (m : MasterId) (w : Fin 4) (val : Word) (s : State) : Host.Outcome State Fault Refusal :=
  .next (s.regTry m (BitVec.ofNat 48 (0x84 + 4 * w.val)) fun s => s.locked m fun s => s.stageWrite w val)

/-- ARM (R33). -/
def execArm (m : MasterId) (s : State) : Host.Outcome State Fault Refusal :=
  .next (s.regTry m 0x94 fun s => s.locked m fun s => s.actCmd m 1)

/-- CANCEL (R34). -/
def execCancel (m : MasterId) (index gen : Byte) (s : State) : Host.Outcome State Fault Refusal :=
  .next (s.regTry m 0x94 fun s => s.locked m fun s => s.actCmd m (ofFields [(0, 2), (8, index.toNat), (16, gen.toNat)]))

/-- QUERY (R35). -/
def execQuery (m : MasterId) (index : Byte) (s : State) : Host.Outcome State Fault Refusal :=
  .next (s.regTry m 0x94 fun s => s.locked m fun s => s.actCmd m (ofFields [(0, 3), (8, index.toNat)]))

/-- ACT_CMD_RELEASE (R31). -/
def execActCmdRelease (m : MasterId) (s : State) : Host.Outcome State Fault Refusal :=
  .next (s.regTry m 0x94 fun s => s.locked m fun s => s.actCmd m 0)

/-- TBS_HOLD_WRITE (R42). -/
def execTbsHoldWrite (m : MasterId) (val : Word) (s : State) : Host.Outcome State Fault Refusal :=
  .next (s.regWrite m 0x40 fun s => s.holdWrite val)

/-- HELD_HOLD_RELEASE (R42). -/
def execHeldHoldRelease (s : State) : Host.Outcome State Fault Refusal :=
  .next (match s.tbs.heldHold with
    | some v =>
      if s.mode = .run then
        let s := if s.linksUp then s else s.advanceTo (s.tbs.runAt + 10000000)
        (s.modTbs fun t => { t with heldHold := none }).applyHold v
      else s
    | none => s)

/-- HOLDOVER (R46). -/
def execHoldover (s : State) : Host.Outcome State Fault Refusal :=
  .next (if s.tbs.role = 2 then
      let s := s.advanceTo (s.tbs.lastMarker + 16 * s.tbs.period.toNat)
      s.toHoldover.raise .tbsHoldover 0
    else s)

end Sys2Proof.Machine
end

