-- ==== Sys2Proof/Machine/Span.lean ====
section
/-! DEFINITION. Span links: bring-up, codewords with replay and credits, control messages, delay, markers and alignment,
notices, routing, with the SPN registers and the commands of this family (chapter 10). -/

namespace Sys2Proof

/-- The flits of a packet on a span link: the header in bits 127:0 of the first, then 64 B of data each (R185). -/
def packetFlits (hdr : BitVec 128) (cls : FlitClass) (epoch : Bool) (data : List Byte) : Nat → List Flit
  | n =>
    let first : Flit := { cls := cls, last := n == 0, epoch := epoch, bits := BitVec.ofNat 512 hdr.toNat }
    first :: (List.range n).map fun i =>
      { cls := cls, last := i + 1 == n, epoch := epoch, bits := BitVec.ofNat 512 (leNatOf ((data.drop (64 * i)).take 64)) }
where
  /-- A number from its bytes, the first the least significant. -/
  leNatOf : List Byte → Nat
    | [] => 0
    | b :: r => b.toNat + 256 * leNatOf r

/-- The class of a packet's flits (R259). -/
def Packet.flitClass (p : Packet) : FlitClass := if p.hdr.opc == opRsp then .rsp else if p.hdr.guar then .guar else .req

/-- The bytes of a data flit. -/
def Flit.bytes (f : Flit) : List Byte := (List.range 64).map fun i => BitVec.ofNat 8 (f.bits.toNat / 2 ^ (8 * i))

/-- The list up to and with the first LAST flit, and the rest; none while the packet is not whole. -/
def wholePacket : List Flit → Option (List Flit × List Flit)
  | [] => none
  | f :: r => if f.last then some ([f], r) else (wholePacket r).map fun x => (f :: x.1, x.2)

end Sys2Proof

namespace Sys2Proof.Machine

/-! ## Stations and arrivals (R255, R273) -/

/-- A span packet from its flits. -/
def flitsPacket (l : List Flit) : Packet :=
  match l with
  | [] => { hdr := unpackHdr 0, data := [] }
  | f :: r =>
    let h := unpackHdr (f.bits.extractLsb' 0 128)
    { hdr := h, data := (r.flatMap Flit.bytes).take (if r.isEmpty then 0 else h.bytes) }

/-- A tracked request and a response match (R276). -/
def Tracked.answers (t : Tracked) (h : Hdr) : Bool := t.srcDev == h.dstDev && t.master == h.src && t.tag == h.tag

/-- A whole packet has arrived over link k; false when a full guaranteed queue keeps it in the receive buffer. A response
that matches no tracked request is an orphan (R276). -/
def State.spanArrive (s : State) (k : Fin 8) (p : Packet) : State × Bool :=
  let h := p.hdr
  if h.opc == opRsp then
    match s.spn.tracked.find? fun t => t.answers h with
    | some t =>
      let s := s.modSpn fun x => { x with tracked := removeFirst (fun t => t.answers h) x.tracked }
      (s.sendRsp t.pkt.hdr p (some k), true)
    | none => (s.modSpn fun x => { x with orphan := satInc x.orphan }, true)
  else if h.guar && !isControl h then
    let st := spanStation k
    if s.vnx.flowActive st true h.flow then s.enterGuar p (some k) st true
    else ((s.orphan p st true).sendRsp h (p.rsp .busy []) (some k), true)
  else (s.sendRequest p (some k), true)

/-- Whole packets leave a class's receive buffer, and their credits go back (R262); `fuel` bounds their number. -/
def State.takePackets (get : Link → List Flit) (put : List Flit → Nat → Link → Link) : Nat → Fin 8 → State → State
  | 0, _, s => s
  | f + 1, k, s =>
    match wholePacket (get (s.linkAt k)) with
    | none => s
    | some (l, r) =>
      let x := s.spanArrive k (flitsPacket l)
      if x.2 then State.takePackets get put f k (x.1.modLink k (put r l.length)) else s

/-- Packets of the three classes. -/
def State.takeArrivals (s : State) (k : Fin 8) : State :=
  let s := State.takePackets (·.rxRsp) (fun r n l => { l with rxRsp := r, retRsp := l.retRsp + BitVec.ofNat 8 n }) 128 k s
  let s := State.takePackets (·.rxGuar) (fun r n l => { l with rxGuar := r, retGuar := l.retGuar + BitVec.ofNat 8 n }) 64 k s
  State.takePackets (·.rxReq) (fun r n l => { l with rxReq := r, retReq := l.retReq + BitVec.ofNat 8 n }) 128 k s

/-- Link k goes down. The upstream of a follower that watches the span-recovered reference is lost with it as a clock (R267,
R276). -/
def State.linkLost (s : State) (k : Nat) (cause : Nat) : State :=
  let ref := (s.linkAt k).isUp && s.clk.watchSpan && s.tbs.role == 2 && s.spn.upstream.map (·.val) == some k
  let s := s.linkDown k cause
  if ref then s.srcFail 1 else s

/-! ## The codeword stream (R258) -/

/-- When codeword i of a link's stream begins: a local time in ns, and the 1/256 ns after it. A codeword takes 5,440 bits at
112.5 Gbit/s, which is 2,176/45 ns, and the lanes start theirs in turn. -/
def Link.cwBegin (l : Link) (i : Nat) : Nat × Nat :=
  let w := 45 * l.lanes.length
  (l.streamAt + 2176 * i / w, 2176 * i % w * 256 / w)

/-- The first codeword that begins at or after a local time. -/
def Link.cwFrom (l : Link) (now : Nat) : Nat := ((now - l.streamAt) * 45 * l.lanes.length + 2175) / 2176

/-- The lane of codeword i within the link: round-robin from lane 0. -/
def Link.cwLane (l : Link) (i : Nat) : Nat := i % l.lanes.length

/-! ## Transmit (R258 to R262) -/

/-- Hold a new item for replay, under the next sequence number; REPLAY_TIMEOUT counts from the oldest one. -/
def Link.hold (l : Link) (now : Nat) (i : SeqItem) : Link :=
  { l with replay := l.replay ++ [i], nextSeq := l.nextSeq + 1, ackAt := if l.replay.isEmpty then now else l.ackAt }

/-- The next response or request flit, round-robin, as credits allow. -/
def Link.nextFlit (l : Link) : Option (SeqItem × Link) :=
  let rsp : Option (SeqItem × Link) := match l.txRsp with
    | f :: r => if 0 < l.credits.rsp then
        some (.flit f, { l with txRsp := r, rspNext := false, credits := { l.credits with rsp := l.credits.rsp - 1 } }) else none
    | [] => none
  let req : Option (SeqItem × Link) := match l.txReq with
    | f :: r => if 0 < l.credits.req then
        some (.flit f, { l with txReq := r, rspNext := true, credits := { l.credits with req := l.credits.req - 1 } }) else none
    | [] => none
  if l.rspNext then rsp.or req else req.or rsp

/-- HALT goes before other control messages. -/
def nextCtl (l : List SpanMsg) : Option SpanMsg := (l.find? fun m => match m with | .halt .. => true | _ => false).or l.head?

/-- The next new item in the order of R260: a control message, a guaranteed flit, a response or request flit. -/
def Link.pick (l : Link) : Option (SeqItem × Link) :=
  match nextCtl l.txCtl with
  | some m =>
    if l.replay.length < 256 then some (.ctl m, { l with txCtl := removeFirst (· == m) l.txCtl }) else none
  | none =>
    if 240 ≤ l.replay.length then none
    else match l.txGuar with
      | f :: r =>
        if 0 < l.credits.guar then
          some (.flit f, { l with txGuar := r, credits := { l.credits with guar := l.credits.guar - 1 } })
        else l.nextFlit
      | [] => l.nextFlit

/-- Fill up to n slots with new items. -/
def Link.fill (now : Nat) : Nat → Link → List SeqItem × Link
  | 0, l => ([], l)
  | n + 1, l =>
    match l.pick with
    | none => ([], l)
    | some (i, l) => let r := Link.fill now n (l.hold now i); (i :: r.1, r.2)

/-- A timing message leaves with its TX_STAMP (R264). -/
def stampMsg (m : SpanMsg) (t : Stamp) : SpanMsg :=
  match m with
  | .marker x => .marker { x with tx := t }
  | .delayReq id _ => .delayReq id t
  | .delayRsp id rx _ => .delayRsp id rx t
  | m => m

/-- The codeword that leaves as number i, with the link after it. -/
def Link.emit (l : Link) (i : Nat) (seq : BitVec 16) (items : List SeqItem) (timing : Option SpanMsg) (nak : Bool) : Link :=
  { l with
    cwNext := i + 1, nak := false
    sent := some (l.cwLane i, Codeword.payload { num := BitVec.ofNat 12 i, seq := seq, items := items, timing := timing, ack := l.expect, nak := nak
                                                 crReq := l.retReq, crRsp := l.retRsp, crGuar := l.retGuar }) }

/-- Codeword i starts, at system time t and local time `now` (R258 to R261). Before the link is UP only LINK_INFO travels,
without a sequence number. -/
def Link.transmit (l : Link) (i : Nat) (t : Stamp) (now : Nat) : Link :=
  if l.state = .up then
    let timing := l.txTiming.head?.map fun m => stampMsg m t
    let slots := if timing.isSome then 8 else 9
    let l := { l with
      txTiming := l.txTiming.drop 1
      reqAt := match timing with | some (.delayReq _ _) => some t | _ => l.reqAt }
    let first := l.replay.length - l.resend
    let old := (l.replay.drop first).take slots
    let seq := l.ackSeq + BitVec.ofNat 16 first
    let r := Link.fill now (slots - old.length) { l with resend := l.resend - old.length }
    r.2.emit i seq (old ++ r.1) timing l.nak
  else if l.state = .init then
    { l.emit i 0 ((l.txCtl.take 9).map .ctl) none false with txCtl := l.txCtl.drop 9, infoSent := l.infoSent || !l.txCtl.isEmpty }
  else l.emit i 0 [] none false

/-! ## Receive (R259, R261, R262) -/

/-- Distance of a sequence number ahead of another, as a signed number in the window. -/
def seqAhead (a b : BitVec 16) : Int := (a - b).toInt

/-- Take a sequenced item in order. -/
def Link.takeItem (now : Nat) (l : Link) (i : SeqItem) : Link :=
  let l := { l with expect := l.expect + 1, gap := false }
  match i with
  | .ctl m => { l with rxCtl := l.rxCtl ++ [(m, now)] }
  | .flit f =>
    match f.cls with
    | .req => { l with rxReq := l.rxReq ++ [f] }
    | .rsp => { l with rxRsp := l.rxRsp ++ [f] }
    | .guar => { l with rxGuar := l.rxGuar ++ [f] }

/-- A codeword is rejected or a gap appears: NAK goes out in the next link slot (R261). -/
def Link.sayNak (l : Link) (now : Nat) : Link := { l with nak := true, gap := true, gapAt := now }

/-- The items of an accepted codeword: those already held are discarded, and so are those beyond a gap (R261). -/
def Link.takeItems (l : Link) (now : Nat) (seq : BitVec 16) (items : List SeqItem) : Link :=
  if 0 < seqAhead seq l.expect then l.sayNak now
  else (items.drop (seqAhead l.expect seq).toNat).foldl (Link.takeItem now) l

/-- ACK releases held items; progress ends a run of resends (R261). -/
def Link.takeAck (l : Link) (now : Nat) (ack : BitVec 16) : Link :=
  let n := (ack - l.ackSeq).toNat
  if n = 0 ∨ l.replay.length < n then l
  else { l with replay := l.replay.drop n, ackSeq := ack, ackAt := now, resends := 0, resend := min l.resend (l.replay.length - n) }

/-- Credits returned since the last link slot (R262). -/
def Link.takeCredits (l : Link) (cw : Codeword) : Link :=
  { l with
    credits := { req := l.credits.req + (cw.crReq - l.seenReq).toNat, rsp := l.credits.rsp + (cw.crRsp - l.seenRsp).toNat
                 guar := l.credits.guar + (cw.crGuar - l.seenGuar).toNat }
    seenReq := cw.crReq, seenRsp := cw.crRsp, seenGuar := cw.crGuar }

/-- Every held item is to be resent; the ninth need without progress takes the link down (R261). -/
def State.replayAll (s : State) (k : Nat) : State :=
  let l := s.linkAt k
  if l.replay.isEmpty then s
  else if 8 ≤ l.resends then s.linkLost k 3
  else s.modLink k fun l =>
    { l with resend := l.replay.length, resends := l.resends + 1, cReplay := satInc l.cReplay, ackAt := s.now }

/-- A codeword the receiver accepts, `frac` being the 1/256 ns of its receive stamp (R261, R264). Before the link is UP only a
LINK_INFO is taken. -/
def State.acceptCw (s : State) (k : Fin 8) (cw : Codeword) (frac : Byte) : State :=
  if (s.linkAt k).isUp then
    let rx : Stamp := s.time.sys + BitVec.ofNat 72 frac.toNat
    let s := s.modLink k fun l =>
      let l := ((l.takeAck s.now cw.ack).takeCredits cw).takeItems s.now cw.seq cw.items
      { l with rxTiming := l.rxTiming ++ (cw.timing.map fun m => (m, rx, s.now)).toList }
    let s := if cw.nak then s.replayAll k else s
    if (s.linkAt k).isUp then s.takeArrivals k else s
  else s.modLink k fun l =>
    { l with rxCtl := l.rxCtl ++ cw.items.filterMap fun i => match i with | .ctl (.linkInfo x) => some (.linkInfo x, s.now) | _ => none }

/-- A received codeword, as the RS decoder gives it (R258, R261). -/
def State.codewordIn (s : State) (k : Fin 8) (rs : RsResult) (payload : BitVec 5140) (frac : Byte) : State :=
  let s := if rs = .corrected then s.modLink k fun l => { l with cFecCe := satInc l.cFecCe } else s
  if rs = .failed then s.modLink k fun l => ({ l with cFecUe := satInc l.cFecUe } : Link).sayNak s.now
  else if crcMatches payload then s.acceptCw k (codewordOf payload) frac
  else s.modLink k fun l => ({ l with cCrc := satInc l.cCrc } : Link).sayNak s.now

/-- REPLAY_TIMEOUT in ns: twice the delay and 1,000 ns, or 10 µs before the first measurement (R261). -/
def Link.replayTimeout (l : Link) : Nat := if l.measured < 8 then 10000 else (2 * l.delay.toNat + 255) / 256 + 1000

/-- A sequenced control message that waits on link k is available 60 ns after its codeword's receive stamp (R263): it is
taken, and k acts on it. Where none such waits, nothing has arrived. -/
def State.onCtl (s : State) (k : Nat) (m : SpanMsg) (f : State → State) : State :=
  match (s.linkAt k).rxCtl.find? fun x => x.1 == m with
  | none => s
  | some x => f ((s.advanceTo (x.2 + 60)).modLink k fun l => { l with rxCtl := removeFirst (fun y => y.1 == m) l.rxCtl })

/-- The same for a timing message, with its receive stamp where the command names it. -/
def State.onTiming (s : State) (k : Nat) (m : SpanMsg) (rx : Option Stamp) (f : State → State) : State :=
  let p (x : SpanMsg × Stamp × Nat) : Bool := x.1 == m && (rx.isNone || rx == some x.2.1)
  match (s.linkAt k).rxTiming.find? p with
  | none => s
  | some x => f ((s.advanceTo (x.2.2 + 60)).modLink k fun l => { l with rxTiming := removeFirst p l.rxTiming })

/-! ## Bring-up, election (R256, R257, R269) -/

/-- What this device declares: all three message families. -/
def State.ownInfo (s : State) (k : Nat) : LinkInfo :=
  { dev := s.tbs.devNum, link := BitVec.ofNat 3 k, width := BitVec.ofNat 2 (field (s.linkAt k).cfg 5 2), part := 0x0096, version := 1, caps := 7 }

/-- ELECT to every UP link: this device's best candidate, or VALID 0 where it knows none (R269). -/
def State.sendElect (s : State) : State :=
  s.flood (.elect (match s.candidate with
    | none => { cand := 0, auto := false, valid := false, hops := 0 }
    | some (auto, n, hops, _) => { cand := n, auto := auto, valid := true, hops := hops })) 0 none

/-- Both LINK_INFO messages have been exchanged: the link is UP (R256). That the far end has accepted this end's shows by no
message; it counts as accepted once sent (DESIGN CHOICE, notes/assumptions/143.md). -/
def State.linkReady (s : State) (k : Nat) : State :=
  let l := s.linkAt k
  if l.state ≠ .init ∨ !l.infoSent ∨ !l.infoOk then s
  else
    let s := s.modLink k fun l => { l with state := .up }
    let s := s.raise .spnLinkUp (ofFields [(0, k), (8, l.farDev.toNat)])
    let s := if s.mode = .lock ∧ !s.tbs.elected ∧ s.tbs.electAt.isNone ∧ s.tbs.noMaster.isNone then
        s.modTbs fun t => { t with electAt := some (s.now + 10000000) }
      else s
    (if s.mode = .lock ∧ !s.tbs.elected then s.sendElect else s).reschedulePeriods

/-- A received LINK_INFO is accepted, or takes the link down with cause INFO (R257). -/
def State.linkInfoIn (s : State) (k : Nat) (i : LinkInfo) : State :=
  let l := s.linkAt k
  if l.state ≠ .init then s
  else if i.dev = s.tbs.devNum then (s.raise .spnDevnumConflict (BitVec.ofNat 32 k)).linkLost k 4
  else if i.version ≠ 1 ∨ i.width.toNat ≠ field l.cfg 5 2 then s.linkLost k 4
  else (s.modLink k fun l => { l with infoOk := true, farDev := i.dev, farLink := i.link, farCaps := i.caps }).linkReady k

/-- The next codeword of link k starts: the first that begins at or after now (R258, R260). -/
def State.sendCodeword (s : State) (k : Nat) : State :=
  let l := s.linkAt k
  let i := max l.cwNext (l.cwFrom s.now)
  let b := l.cwBegin i
  let s := s.advanceTo b.1
  (s.modLink k fun l => l.transmit i (s.time.sys + BitVec.ofNat 72 b.2) s.now).linkReady k

/-- A received ELECT (R22, R269): only in LOCK, while the election is open. -/
def State.electIn (s : State) (k : Fin 8) (e : Elect) : State :=
  if s.mode = .lock ∧ !s.tbs.elected ∧ e.valid then
    let c : Bool × Byte × Byte × Option (Fin 8) := (e.auto, e.cand, e.hops + 1, some k)
    let new := match s.tbs.best with | none => true | some b => better c b
    let s := if new then (s.modTbs fun t => { t with best := some c }).sendElect else s
    if s.tbs.noMaster.isSome ∧ s.tbs.electAt.isNone then s.modTbs fun t => { t with electAt := some (s.now + 10000000) } else s
  else s

/-! ## Delay (R264) -/

/-- One measurement m, in 1/256 ns. -/
def State.measure (s : State) (k : Nat) (m : Int) : State :=
  let l := s.linkAt k
  if l.measured < 8 then
    s.modLink k fun l =>
      { l with measured := l.measured + 1, sum := l.sum + m, delay := if l.measured = 7 then (l.sum + m) / 8 else l.delay }
  else if 512 < (m - l.delay).natAbs then
    let jump := decide (2 ≤ l.discards)
    (s.modLink k fun l =>
      { l with cDiscard := satInc l.cDiscard, discards := if jump then 0 else l.discards + 1, delay := if jump then m else l.delay }).raiseIf
      jump .spnDelayJump (BitVec.ofNat 32 k)
  else s.modLink k fun l => { l with discards := 0, delay := l.delay + (m - l.delay) / 8 }

/-! ## Markers (R13, R14, R46 to R48, R265 to R268) -/

/-- The marker of the edge just processed (R266). -/
def State.ownMarker (s : State) : Marker :=
  { master := s.tbs.masterNum, hops := BitVec.ofNat 8 (if s.tbs.role = 1 then 0 else s.spn.hops), skipped := s.tbs.holdActive
    tick := s.tbs.tick, edge := BitVec.ofNat 72 (256 * s.tbs.lastEdge.toNat), tx := 0, period := s.tbs.period, holdLeft := s.tbs.holdLeft }

/-- The master, or an aligned follower, sends a marker on every UP link except its upstream (R266). -/
def State.sendMarkers (s : State) : State :=
  if s.tbs.role = 1 ∨ (s.tbs.role = 2 ∧ s.tbs.aligned ∧ s.spn.hops ≤ 255) then
    forN 8 (fun k s =>
      let l := s.linkAt k
      if l.isUp && l.farCaps.getLsbD 0 && s.spn.upstream.map (·.val) != some k then
        s.modLink k fun l => { l with txTiming := .marker s.ownMarker :: l.txTiming }
      else s) s
  else s

/-- This device's own edge at a system time: one it has had, or the next, as it stands now. -/
def State.ownEdge (s : State) (e : BitVec 64) : Option EdgeRec :=
  match s.tbs.edges.find? fun x => x.time == e with
  | some x => some x
  | none => if e = s.tbs.nextEdge then some s.nextRec else none

/-- TICK and SKIPPED of a marker are those of this device's own edge (R268). -/
def sameEdge (own : Option EdgeRec) (mk : Marker) : Bool :=
  match own with | some x => x.tick == mk.tick && x.skipped == mk.skipped | none => false

/-- TICK, PERIOD and the hold state of a marker are the device's own (R46, R48). -/
def sameMarker (own : Option EdgeRec) (mk : Marker) : Bool :=
  sameEdge own mk && match own with | some x => x.holdLeft == mk.holdLeft && x.period == mk.period | none => false

/-- The offset a marker shows, in 1/256 ns (R265). -/
def State.offsetOf (s : State) (k : Nat) (mk : Marker) (rx : Stamp) : Int :=
  let l := s.linkAt k
  (rx.toNat : Int) - mk.tx.toNat - l.delay - l.asym.toInt * 256 / 2000

/-- Saturate to 32 bits, signed. -/
def sat32 (x : Int) : Word := BitVec.ofInt 32 (max (-2 ^ 31) (min (2 ^ 31 - 1) x))

/-- The marker's time, tick number, period and hold count become the device's own, in a single step (R13, R47). A marker
carries no INDEF: an indefinite hold of the device's own goes on only under a marker that is skipped with nothing left to
count (DEDUCED, notes/assumptions/136.md). -/
def State.adopt (s : State) (mk : Marker) (off : Int) : State :=
  let edge := BitVec.ofNat 64 (mk.edge.toNat / 256)
  let s := s.modTime fun t => { t with sys := t.sys - BitVec.ofInt 72 off, steer := 0 }
  let s := s.modTbs fun t =>
    { t with
      tick := mk.tick, period := mk.period, holdLeft := mk.holdLeft, holdActive := mk.skipped, lastEdge := edge
      nextEdge := edge + BitVec.ofNat 64 mk.period.toNat, timeSet := true, realign := false
      indef := t.indef && mk.skipped && mk.holdLeft == 0
      edges := [{ time := edge, tick := mk.tick, skipped := mk.skipped, holdLeft := mk.holdLeft, period := mk.period }] }
  if s.mode = .run then forN 256 State.wakeAction s else s

/-- ALIGNED after 16 markers in a row within 100 ps (R14). `TBS_OFFSET` is the offset in whole ps, rounded down: the
rounding is not given (DESIGN CHOICE, notes/assumptions/88.md). -/
def State.countAlign (s : State) (off : Int) : State :=
  s.modTbs fun t =>
    let n := if off.natAbs * 1000 ≤ 100 * 256 then min 16 (t.alignRun + 1) else 0
    { t with alignRun := n, offset := BitVec.ofInt 32 (off * 1000 / 256)
             aligned := t.aligned || n == 16, role := if n = 16 then 2 else t.role }

/-- A marker on the upstream link disciplines time, aligns, re-aligns, or shows a mismatch. -/
def State.discipline (s : State) (k : Nat) (mk : Marker) (rx : Stamp) : State :=
  let off := s.offsetOf k mk rx
  let s := s.modTbs fun t => { t with lastMarker := s.now }
  let own := s.ownEdge (BitVec.ofNat 64 (mk.edge.toNat / 256))
  let slew (s : State) : State := (s.modTime fun t => { t with steer := -off }).countAlign off
  if !s.tbs.timeSet then (s.adopt mk off).countAlign off
  else if s.tbs.realign || (s.tbs.role == 3 && !sameMarker own mk) then
    let d : Int := (mk.tick.toNat : Int) - s.tbs.tick.toNat
    ((s.adopt mk off).raise .tbsRealign (sat32 d)).countAlign off
  else if s.tbs.role == 2 && !sameEdge own mk then
    (s.toHoldover.modTbs fun t => { t with mismatched := true }).raise .tbsTickMismatch
      (BitVec.ofNat 32 mk.tick.toNat)
  else slew s

/-- A received MARKER. -/
def State.markerIn (s : State) (k : Fin 8) (mk : Marker) (rx : Stamp) : State :=
  let l := s.linkAt k
  if !l.isUp || !s.tbs.elected then s
  else if mk.master ≠ s.tbs.masterNum then
    (s.modLink k fun l => { l with foreign := true }).raiseIf (!l.foreign) .spnForeignMaster (ofFields [(0, k.val), (8, mk.master.toNat)])
  else
    let s := s.modLink k fun l => { l with markerAt := some s.now, markerHops := mk.hops }
    if !s.follower || s.tbs.mismatched then s
    else
      let s := if s.tbs.role = 3 ∨ s.spn.upstream.isNone then
          match s.bestUpstream none with
          | some j => s.modSpn fun p => { p with upstream := some j, hops := (s.linkAt j).markerHops.toNat + 1 }
          | none => s
        else s
      if s.spn.upstream = some k ∧ 8 ≤ l.measured then
        (s.modSpn fun p => { p with hops := mk.hops.toNat + 1 }).discipline k mk rx
      else s

/-! ## Notices (R270, R271) -/

/-- A notice is too late to apply. -/
def State.noticeLate (s : State) : NoticeKind → Bool
  | .hold e _ _ => decide (e.toNat ≤ s.tbs.lastEdge.toNat ∨ e.toNat < s.sysNs + 40)
  | .period n _ => decide (n.toNat ≤ s.tbs.tick.toNat) || match s.dueAt (.tick n) with
    | some t => decide (t < s.time.sys.toNat + 40 * 256)
    | none => false

/-- A notice joins the edge schedule; one for the same tick replaces the earlier. -/
def State.applyNotice (s : State) : NoticeKind → State
  | .hold e c i => s.modTbs fun t => { t with sched := t.sched ++ [.hold e c i] }
  | .period n p => s.modTbs fun t =>
    { t with sched := (t.sched.filter fun x => match x with | .period m _ => m != n | _ => true) ++ [.period n p] }

/-- A received NOTICE: applied or reported late, and relayed once. -/
def State.noticeIn (s : State) (k : Nat) (master : Byte) (id : BitVec 16) (kind : NoticeKind) : State :=
  if s.spn.seenNotices.contains (master, id) then s
  else
    let s := s.modSpn fun p => { p with seenNotices := remember 1024 p.seenNotices (master, id) }
    let s := if s.follower ∧ master = s.tbs.masterNum then
        if s.noticeLate kind then
          s.raise .spnNoticeLate (ofFields [(0, id.toNat), (16, match kind with | .hold .. => 0 | .period .. => 1)])
        else s.applyNotice kind
      else s
    s.flood (.notice master id kind) 0 (some k)

/-! ## Routing (R273, R274, R276) -/

/-- A packet's flits join the queue of its class on link k. -/
def State.sendSpan (s : State) (k : Nat) (p : Packet) : State :=
  let f := packetFlits (packHdr p.hdr) p.flitClass p.hdr.epoch p.data p.dataFlits
  s.modLink k fun l =>
    match p.flitClass with
    | .req => { l with txReq := l.txReq ++ f }
    | .rsp => { l with txRsp := l.txRsp ++ f }
    | .guar => { l with txGuar := l.txGuar ++ f }

/-- The port answers REMOTE_UNREACHABLE; a response that cannot go on is discarded (notes/assumptions/55.md). -/
def State.unreachable (s : State) (p : Packet) : State := if p.hdr.opc == opRsp then s else s.respond p .remoteUnreachable []

/-- A packet leaves the network for another device over the link its route named when it entered (R273, R274, R276, R277).
While 1,024 requests are tracked the port accepts no further one. -/
def State.spanPort (s : State) (q : InFlight) : State :=
  let p := q.pkt
  let isRsp := p.hdr.opc == opRsp
  if !isRsp ∧ 1024 ≤ s.spn.tracked.length then s
  else
    let s := s.takeNet q
    match q.link with
    | none => s.unreachable p
    | some k =>
      let turn := match q.via with | some v => (s.linkAt v).cfg.getLsbD 7 && (s.linkAt k).cfg.getLsbD 7 | none => false
      if !(s.linkAt k).isUp || !(s.linkAt k).farCaps.getLsbD 1 then s.unreachable p
      else if turn then
        (s.raise .spnRouteViolation (ofFields [(0, (q.via.map (·.val)).getD 0), (4, k), (8, p.hdr.dstDev.toNat)])).unreachable p
      else
        let s := s.sendSpan k p
        if isRsp then s
        else s.modSpn fun x =>
          { x with tracked := x.tracked ++ [{ srcDev := p.hdr.srcDev, master := p.hdr.src, tag := p.hdr.tag, link := k, pkt := p }] }

/-! ## Registers -/

/-- The code of a link's state (Table 10.5). -/
def LinkState.code : LinkState → Nat | .down => 0 | .training => 1 | .aligning => 2 | .init => 3 | .up => 4

/-- An SPN register at an offset of its block (Table 10.5). -/
def State.spnRead (s : State) (o : Nat) : Option Word :=
  let p := s.spn
  if o = 0 then
    let up := (List.range 8).foldl (fun a k => if (s.linkAt k).isUp then a + 2 ^ k else a) 0
    some (ofFields [(0, up), (8, (p.upstream.map (·.val)).getD 0), (11, p.upstream.isSome.toNat), (16, s.tbs.devNum.toNat)])
  else if o = 4 then some (ofFields [(0, p.lead.toNat)])
  else if o = 8 then some (ofFields [(0, p.tracked.length)])
  else if o = 0xC then some p.orphan
  else if o = 0x10 then some (ofFields [(0, p.interval.toNat)])
  else if 0x400 ≤ o ∧ o < 0x800 then some (ofFields [(0, (p.route.getD ((o - 0x400) / 4) 15).toNat)])
  else if 0x1000 ≤ o ∧ o < 0x1200 then
    let l := s.linkAt ((o - 0x1000) / 0x40)
    match o % 0x40 with
    | 0 => some (ofFields [(0, l.enable.toNat), (1, l.autoRetrain.toNat)])
    | 4 => some (ofFields [(0, l.cfg.toNat)])
    | 8 => some (ofFields [(0, l.state.code), (8, l.farDev.toNat), (16, l.farLink.toNat), (24, l.cause.toNat)])
    | 0xC => some (BitVec.ofInt 32 (l.delay * 1000 / 256))
    | 0x10 => some l.asym
    | 0x14 => some l.cDiscard
    | 0x18 => some l.cFecCe
    | 0x1C => some l.cFecUe
    | 0x20 => some l.cCrc
    | 0x24 => some l.cReplay
    | 0x28 => some l.cDown
    | 0x2C => some (ofFields [(0, l.replay.length)])
    | _ => none
  else none

/-- What a read of an RC register clears (Table 10.5). -/
def State.spnClear (s : State) (o : Nat) : State :=
  if o = 0xC then s.modSpn fun p => { p with orphan := 0 }
  else if 0x1000 ≤ o ∧ o < 0x1200 then
    s.modLink ((o - 0x1000) / 0x40) fun l =>
      if o % 0x40 = 0x14 then { l with cDiscard := 0 } else if o % 0x40 = 0x18 then { l with cFecCe := 0 }
      else if o % 0x40 = 0x1C then { l with cFecUe := 0 } else if o % 0x40 = 0x20 then { l with cCrc := 0 }
      else if o % 0x40 = 0x24 then { l with cReplay := 0 } else if o % 0x40 = 0x28 then { l with cDown := 0 } else l
  else s

/-- DOWN leaves in the next four codewords (R278). -/
def State.sayDown (s : State) (k : Nat) : State :=
  forN 4 (fun _ s => s.sendCodeword k) (s.modLink k fun l => { l with txTiming := List.replicate 4 (.down 1), resend := 0 })

/-- A write to `SPN_CTRL_k` (R276, R278). -/
def State.spnCtrl (s : State) (k : Nat) (v : Word) : State :=
  let was := (s.linkAt k).enable
  let up := (s.linkAt k).isUp
  let s := s.modLink k fun l => { l with enable := v.getLsbD 0, autoRetrain := v.getLsbD 1 }
  if was ∧ !v.getLsbD 0 then ((if up then s.sayDown k else s).linkLost k 1).reschedulePeriods
  else if !was ∧ v.getLsbD 0 ∧ (s.linkAt k).state = .down then s.startLink k
  else s

/-- A write to an SPN register (Table 10.5); an interval below 10 is not taken (notes/assumptions/55.md). -/
def State.spnWrite (s : State) (o : Nat) (v : Word) : Option State :=
  if (s.spnRead o).isNone then none
  else if o = 0x10 then
    some (if 10 ≤ field v 0 16 then s.modSpn fun p => { p with interval := BitVec.ofNat 16 v.toNat } else s)
  else if 0x400 ≤ o ∧ o < 0x800 then
    some (s.modSpn fun p => { p with route := p.route.set 15 ((o - 0x400) / 4) (BitVec.ofNat 4 v.toNat) })
  else if 0x1000 ≤ o then
    let k := (o - 0x1000) / 0x40
    some (if o % 0x40 = 0 then s.spnCtrl k v
      else if o % 0x40 = 0x10 then s.modLink k fun l => { l with asym := v } else s)
  else some s

/-! ## Commands -/

/-- SPAN_ALIGN_DONE (R256): codeword boundaries are found, and the lanes lie `skew` ps apart, of which 16 ns can be taken
out. -/
def execSpanAlignDone (k : Fin 8) (skew : Nat) (s : State) : Host.Outcome State Fault Refusal :=
  .next (if (s.linkAt k).state = .aligning ∧ skew ≤ 16000 then
      (s.modLink k fun l => { l with state := .init }).sendCtl k (.linkInfo (s.ownInfo k))
    else s)

/-- LINK_INFO (R257). -/
def execLinkInfo (k : Fin 8) (i : LinkInfo) (s : State) : Host.Outcome State Fault Refusal :=
  .next (s.onCtl k (.linkInfo i) fun s => s.linkInfoIn k i)

/-- CODEWORD_TX (R258 to R262). -/
def execCodewordTx (k : Fin 8) (s : State) : Host.Outcome State Fault Refusal :=
  .next (if (s.linkAt k).state = .up ∨ (s.linkAt k).state = .init ∨ (s.linkAt k).state = .aligning then s.sendCodeword k else s)

/-- CODEWORD_RX (R258 to R262). -/
def execCodewordRx (k : Fin 8) (rs : RsResult) (payload : BitVec 5140) (frac : Byte) (s : State) : Host.Outcome State Fault Refusal :=
  .next (if (s.linkAt k).state = .up ∨ (s.linkAt k).state = .init then s.codewordIn k rs payload frac else s)

/-- When REPLAY_TIMEOUT next ends on a link: at the receiver, while it waits for a replay, and at the transmitter, while it
holds items (R261). -/
def Link.replayDue (l : Link) : List Nat :=
  (if l.gap then [l.gapAt + l.replayTimeout] else []) ++ if l.replay.isEmpty then [] else [l.ackAt + l.replayTimeout]

/-- REPLAY_TIMEOUT (R261): the receiver repeats NAK, and the transmitter resends, each when its time has passed. -/
def execReplayTimeout (k : Fin 8) (s : State) : Host.Outcome State Fault Refusal :=
  .next (let l := s.linkAt k
    match l.replayDue.min? with
    | none => s
    | some t =>
      if !l.isUp then s
      else
        let s := s.advanceTo t
        let s := if l.gap ∧ l.gapAt + l.replayTimeout ≤ s.now then s.modLink k fun l => l.sayNak s.now else s
        if !l.replay.isEmpty ∧ l.ackAt + l.replayTimeout ≤ s.now then s.replayAll k else s)

/-- ELECT (R269). -/
def execElect (k : Fin 8) (e : Elect) (s : State) : Host.Outcome State Fault Refusal :=
  .next (s.onCtl k (.elect e) fun s => s.electIn k e)

/-- ELECT_SEND (R269): 100 µs after the last round. -/
def execElectSend (s : State) : Host.Outcome State Fault Refusal :=
  .next (if s.mode = .lock ∧ !s.tbs.elected then
      let s := s.advanceTo (s.tbs.electSentAt + 100000)
      (s.modTbs fun t => { t with electSentAt := s.now }).sendElect
    else s)

/-- MARKER (R265 to R268). -/
def execMarker (k : Fin 8) (mk : Marker) (rx : Stamp) (s : State) : Host.Outcome State Fault Refusal :=
  .next (s.onTiming k (.marker mk) (some rx) fun s => s.markerIn k mk rx)

/-- DELAY_REQ (R264): answered in the next codeword. `tx` is the far end's TX_STAMP. -/
def execDelayReq (k : Fin 8) (id : Byte) (tx rx : Stamp) (s : State) : Host.Outcome State Fault Refusal :=
  .next (s.onTiming k (.delayReq id tx) (some rx) fun s => s.modLink k fun l => { l with txTiming := l.txTiming ++ [.delayRsp id rx 0] })

/-- DELAY_RSP (R264): request received at t2, answered at t3, received back at t4. -/
def execDelayRsp (k : Fin 8) (id : Byte) (t2 t3 t4 : Stamp) (s : State) : Host.Outcome State Fault Refusal :=
  .next (s.onTiming k (.delayRsp id t2 t3) (some t4) fun s =>
    match (s.linkAt k).reqAt with
    | some t1 =>
      if (s.linkAt k).reqId = id then
        (s.modLink k fun l => { l with reqAt := none }).measure k
          (((t4.toNat : Int) - t1.toNat - ((t3.toNat : Int) - t2.toNat)) / 2)
      else s
    | none => s)

/-- DELAY_REQ_SEND (R264): at once after link up, then every interval. -/
def execDelayReqSend (k : Fin 8) (s : State) : Host.Outcome State Fault Refusal :=
  .next (let l := s.linkAt k
    if l.isUp && l.farCaps.getLsbD 0 then
      let s := match l.delayAt with | none => s | some t => s.advanceTo (t + 1000 * s.spn.interval.toNat)
      s.modLink k fun l =>
        { l with reqId := l.reqId + 1, reqAt := none, delayAt := some s.now, txTiming := l.txTiming ++ [.delayReq (l.reqId + 1) 0] }
    else s)

/-- HOLD_REQ (R42, R270). -/
def execHoldReq (k : Fin 8) (origin : Byte) (count : BitVec 16) (indef : Bool) (s : State) : Host.Outcome State Fault Refusal :=
  .next (s.onCtl k (.holdReq origin count indef) fun s => s.requestHold origin count indef)

/-- NOTICE (R270, R271). -/
def execNotice (k : Fin 8) (master : Byte) (id : BitVec 16) (kind : NoticeKind) (s : State) : Host.Outcome State Fault Refusal :=
  .next (s.onCtl k (.notice master id kind) fun s => s.noticeIn k master id kind)

/-- DOWN (R278): cause PEER. -/
def execDown (k : Fin 8) (cause : BitVec 4) (s : State) : Host.Outcome State Fault Refusal :=
  .next (s.onTiming k (.down cause) none fun s => s.linkLost k 7)

/-- UPSTREAM_MARKER_TIMEOUT (R267): 2 tick periods without a marker. -/
def execUpstreamMarkerTimeout (s : State) : Host.Outcome State Fault Refusal :=
  .next (match s.spn.upstream with
    | some k =>
      if s.tbs.role = 2 then
        let s := s.advanceTo (((s.linkAt k).markerAt).getD s.tbs.lastMarker + 2 * s.tbs.period.toNat)
        if s.clk.watchSpan then s.srcFail 1 else s.switchUpstream k
      else s
    | none => s)

/-- CODEWORD_LOCK_LOST (R276): cause LOCK_LOST. -/
def execCodewordLockLost (k : Fin 8) (s : State) : Host.Outcome State Fault Refusal :=
  .next (if (s.linkAt k).state = .up ∨ (s.linkAt k).state = .init then s.linkLost k 2 else s)

/-- SPN_LINK_DISABLE (R278). -/
def execSpnLinkDisable (m : MasterId) (k : Fin 8) (val : Word) (s : State) : Host.Outcome State Fault Refusal :=
  .next (s.regWrite m (BitVec.ofNat 48 (0xA01000 + 0x40 * k.val)) fun s => s.spnCtrl k (val &&& 0xFFFFFFFE))

/-- SPN_LINK_ENABLE (R278). -/
def execSpnLinkEnable (m : MasterId) (k : Fin 8) (val : Word) (s : State) : Host.Outcome State Fault Refusal :=
  .next (s.regWrite m (BitVec.ofNat 48 (0xA01000 + 0x40 * k.val)) fun s => s.spnCtrl k (val ||| 1))

/-- SPAN_PORT_REQUEST (R273 to R277): a packet for another device, of this device or come over link `via`. -/
def execSpanPortRequest (p : Packet) (via : Option (Fin 8)) (s : State) : Host.Outcome State Fault Refusal :=
  .next (s.whenOn fun s =>
    if p.hdr.dstDev = s.tbs.devNum then s
    else s.takePort (fun q => samePacket q.pkt p && q.via == via) fun q s => s.spanPort q)

/-- SPAN_LANE_FAILURE (R276): cause LANE. -/
def execSpanLaneFailure (k : Fin 8) (s : State) : Host.Outcome State Fault Refusal :=
  .next (if (s.linkAt k).isUp then s.linkLost k 5 else s)

end Sys2Proof.Machine
end

