-- ==== Sys2Proof/Machine/Edge.lean ====
section
/-! DEFINITION. The tick edge: what every block does at it, in the order of R39 (chapter 1, with R58, R66, R67, R88, R92,
R95, R153, R190, R266). -/

namespace Sys2Proof.Machine

/-- TE writes that reach this edge take effect, on a skipped edge too (R11). -/
def State.teEdge (s : State) : State := forN 48 State.denEdge (forN 16 State.pinEdge s)

/-- The hold of this edge: the count and INDEF that are left after it, and whether it is skipped (R43). -/
def State.holdEdge (s : State) : State :=
  let h := (s.noticeHold).getD (s.holdAt s.now)
  let skip := h.1 || h.2 != 0
  s.modTbs fun t =>
    { t with
      holdActive := skip, indef := h.1, holdLeft := BitVec.ofNat 16 (if h.1 then 0 else h.2 - 1)
      holdQ := t.holdQ.filter fun q => !(q.time + 40 ≤ s.now) }

/-- The overrun check with the outgoing declarations, in RUN after release stage 3 (R25 to R27). -/
def State.overrunCheck (s : State) : State :=
  let miss := s.tbs.doneMask &&& ~~~s.tbs.done
  let s' := s.modTbs fun t => { t with done := t.doneNext, doneNext := 0 }
  if s.mode = .run ∧ s.tbs.checkOn ∧ miss ≠ 0 then
    (s'.modTbs fun t => { t with overrun := t.overrun ||| miss, overrunCount := satInc t.overrunCount }).raise .tbsOverrun
      (ofFields [(0, lowestBit miss.toNat 50), (8, popCount miss.toNat 50)])
  else s'

/-- At a skipped edge the latches are neither checked nor cleared, and late signals join them (R25, R44). -/
def State.skipLatches (s : State) : State := s.modTbs fun t => { t with done := t.done ||| t.doneNext, doneNext := 0 }

/-- The tick number advances (R19), and a period change announced for this tick takes effect (R18, R270). -/
def State.nextTick (s : State) : State := s.modTbs fun t => { t with tick := t.tick + 1, period := t.periodAt (t.tick + 1) }

/-! ## Edge-class actions -/

/-- An entry is due at this edge (R28, R37): one that names an edge unless the edge is skipped (R44), a time-class one at
its system time, which is no later than the edge. -/
def State.edgeDue (s : State) (skip : Bool) (e : ActEntry) : Bool :=
  e.state == .armed && match e.due with
    | .tick n => !skip && n == s.tbs.tick
    | .edgeAfter t => !skip && decide (t.toNat ≤ s.time.sys.toNat)
    | .time t => decide (e.cls.toNat < 2) && decide (t.toNat ≤ 256 * s.tbs.nextEdge.toNat)

/-- The device's mode lets an action of a class run (R38, R88). -/
def State.classRuns (s : State) (c : Nat) : Bool :=
  s.mode == .run || (s.mode == .sleep && (decide (c < 2) || (c == 5 && !s.hasSpan)))

/-- The effect of an action of each class at its edge (Table 1.1, R41). -/
def State.edgeEffect (s : State) (e : ActEntry) : State :=
  match e.cls.toNat with
  | 2 => s.denSwap e.target.toNat (e.arg.getLsbD 0)
  | 3 => s.epochAction e.target.toNat (field e.arg 0 1)
  | 4 => (s.opDue e.target.toNat).modClk fun c => { c with govDue := none }
  | 5 => s.modTbs fun t => { t with period := BitVec.ofNat 24 e.arg.toNat }
  | _ => s.timedEffect e

/-- The entries of one class that are due run in index order, one for each target (R39, R40); where the mode does not let
the class run, that one waits. -/
def State.runClass (s : State) (skip : Bool) (c : Nat) : State :=
  let l := (List.range 256).filter fun i => (s.actAt i).cls.toNat == c && s.edgeDue skip (s.actAt i)
  (l.foldl (fun (x : State × List ActEntry) i =>
    let e := s.actAt i
    if x.2.any (sameTarget e) then (x.1.refuse i, x.2)
    else if s.classRuns c then ((x.1.finish i).edgeEffect e, e :: x.2)
    else (x.1.modAct i fun e => { e with state := .waiting }, e :: x.2)) (s, [])).1

/-- A governor reduction takes effect at this edge, unless an OP action of the edge has taken it in (R67, R102). -/
def State.govEdge (s : State) : State :=
  match s.clk.govDue with
  | some l => if s.nocStopped then s else (s.modClk fun c => { c with govDue := none }).opDue l.toNat
  | none => s

/-- OP_START in VERIFY (R66): the sequencer moves to it at the first edge at which the image has been accepted. -/
def State.startOp (s : State) : State :=
  if s.mode = .verify ∧ s.pwr.checksOk ∧ s.clk.phase = .idle ∧ s.clk.op.toNat ≠ s.opClamp s.clk.opStart.toNat then
    s.opDue s.clk.opStart.toNat
  else s

/-- All that an edge which is not skipped runs, in class order (R39). -/
def State.runEdge (s : State) : State :=
  let s := s.overrunCheck.nextTick.releaseEdge
  [5, 4, 3, 2, 0, 1].foldl (fun s c => s.runClass false c) s

/-- What a skipped edge runs: time-class actions due at its system time (R44). -/
def State.runSkipped (s : State) : State := [0, 1].foldl (fun s c => s.runClass true c) s.skipLatches

/-! ## Modes at an edge -/

/-- The wake sources pending at an edge (R92): those that fired since the last one, Brock-A's routed event, a host request
outstanding, and those that have started a wake still under way. -/
def State.wakesPending (s : State) : BitVec 6 :=
  let host := !(s.hst.inReads.isEmpty && s.hst.inWrites.isEmpty && s.hst.inWait.isEmpty)
  let p := s.pwr.wakePend ||| BitVec.ofNat 6 (2 * host.toNat + 8 * (s.evt.brkPend.getLsbD 0).toNat)
  (p ||| if s.pwr.waking.isSome then s.pwr.wakeCause else 0) &&& s.pwr.wakeEn

/-- A mode request that reaches this edge (R92, Table 3.2). -/
def State.modeEdge (s : State) : State :=
  let te := teTake s.pwr.modeReqQ s.now
  let s := s.modPwr fun p => { p with modeReqQ := te.2 }
  let p := s.wakesPending
  match te.1.map (field · 0 2) with
  | some 1 =>
    if s.mode = .run then (if p = 0 then s.enterSleep else s.raise .pwrSleepAbort (BitVec.ofNat 32 p.toNat)) else s
  | some 2 =>
    if s.mode = .run ∨ s.mode = .sleep then
      (if p = 0 then s.enterDeep else s.raise .pwrSleepAbort (BitVec.ofNat 32 p.toNat))
    else s
  | some 3 => if s.mode = .sleep then s.startWake else s
  | _ => s

/-- A device that wakes enters RUN at this edge (R95): its clocks run again, and a follower with a span link is aligned.
From DEEP the edge is not skipped, the FAB groups restart at it, and the host hears of it (R317). A RESET-policy failure
keeps the device from RUN (R57). -/
def State.wakeEdge (s : State) (skip : Bool) : State :=
  match s.pwr.waking with
  | some (some t) =>
    if t ≤ s.now ∧ (!(s.hasSpan && s.follower) || s.tbs.aligned) ∧ !s.pwr.resetPending then
      if s.mode = .sleep then s.enterRun
      else if s.mode = .deep ∧ !skip then
        ((s.enterRun.modPwr fun p => { p with rel := { p.rel with stage := 4, groups := 0, groupAt := s.now } }).modHst fun h =>
          { h with tlps := h.tlps ++ [.ltr 20] }).requestStep (.fabWake 0)
      else s
    else s
  | _ => s

/-- The PERIOD actions still waiting for a link that stays down run at the first edge 10 ms after the return to RUN (R38);
they are announced SPN_NOTICE_LEAD before. -/
def State.latePeriods (s : State) : State :=
  if s.mode = .run ∧ s.tbs.runAt + 10000000 ≤ s.now + s.spn.lead.toNat + s.tbs.period.toNat then
    forN 256 (State.reschedule (s.sysNs + (s.tbs.runAt + 10000000 - s.now))) s
  else s

/-- The edge is over: its time is recorded, and the next follows one period later (R17, R18). -/
def State.closeEdge (s : State) (skip : Bool) : State :=
  s.modTbs fun t =>
    { t with
      lastEdge := t.nextEdge, nextEdge := t.nextEdge + BitVec.ofNat 64 t.period.toNat
      edgeFrac := BitVec.ofNat 8 (s.time.sys.toNat - 256 * t.nextEdge.toNat)
      edges := ({ time := t.nextEdge, tick := t.tick, skipped := skip, holdLeft := t.holdLeft, period := t.period } :: t.edges).take 64
      sched := t.sched.filter fun x => match x with
        | .hold e _ _ => decide (t.nextEdge.toNat < e.toNat)
        | .period n _ => decide (t.tick.toNat < n.toNat) }

/-- Drain windows whose moment has come are open (R148). -/
def State.drainWindows (s : State) : State := forN 48 (fun d s => s.openDrain d) s

/-- DG_EDGE is due at every gate after an edge that is not skipped; a den in a swap gets it at the end of the freeze (Table 5.2,
R377). -/
def State.pulseGates (s : State) : State :=
  forN 48 (fun d s => s.modDen d fun n => if n.swapping then n else { n with edgeAt := some s.now }) s

/-- A tick edge (R17, R39, R44): time-class actions due before it run first, each at its own system time. -/
def State.tickEdge (s : State) : State :=
  let s := State.runDue 256 (256 * s.tbs.nextEdge.toNat - 1) s
  let s := s.advance (s.cyclesTo (256 * s.tbs.nextEdge.toNat))
  let s := s.teEdge.holdEdge
  let skip := s.tbs.holdActive
  let s := if skip then s.runSkipped else s.runEdge.pulseGates
  let s := (s.closeEdge skip).drainWindows.govEdge.startOp.opPendingEdge
  let s := s.modeEdge.wakeEdge skip
  let s := s.modPwr fun p => { p with wakePend := 0 }
  s.latePeriods.framesRestart.sendMarkers

/-- The edges that system time t, in 1/256 ns, has reached run first, at most n of them. -/
def State.edgesTo : Nat → Nat → State → State
  | 0, _, s => s
  | n + 1, t, s => if 256 * s.tbs.nextEdge.toNat ≤ t then State.edgesTo n t s.tickEdge else s

/-- The entry at index i, of class c, falls due: the edges and the actions that come before it, in time and in the order
of R39, run before it. A period is 200 ns at least (R16). -/
def State.runTimed (s : State) (i : Nat) (c : BitVec 3) : State :=
  let e := s.actAt i
  match e.timeDue with
  | some t =>
    if e.cls = c ∧ s.time.runs then
      State.runDue 256 t (State.edgesTo ((t / 256 - s.tbs.nextEdge.toNat) / 200 + 1) t s)
    else s
  | none => s

/-- TRIG_ACTION (R38, R39, R41). -/
def execTrigAction (index : Byte) (s : State) : Host.Outcome State Fault Refusal := .next (s.runTimed index.toNat 0)

/-- EVENT_ACTION (R28, R38, R39). -/
def execEventAction (index : Byte) (s : State) : Host.Outcome State Fault Refusal := .next (s.runTimed index.toNat 1)

/-- TICK_EDGE. There is no edge before system time starts, or while it stands (R12, R17, R50). -/
def execTickEdge (s : State) : Host.Outcome State Fault Refusal := .next (if s.time.runs then s.tickEdge else s)

end Sys2Proof.Machine
end

