-- ==== Sys2Proof/Machine/Mac.lean ====
section
/-! DEFINITION. The Ethernet MACs: direct queues, rings, steering, flow control, timestamps and statistics, with the MAC
registers and the commands of this family (chapter 11). -/

namespace Sys2Proof

/-- A number of 8 × l.length bits, most significant byte first: the byte order of a frame (PRESUMED: IEEE 802.3, which
R281 and R282 name; notes/assumptions/58.md). -/
def beNat (l : List Byte) : Nat := l.foldl (fun a b => 256 * a + b.toNat) 0

/-- The n bytes of x, most significant first. -/
def beBytes (x n : Nat) : List Byte := (List.range n).map fun i => BitVec.ofNat 8 (x / 256 ^ (n - 1 - i))

/-- Replace the bytes of a list from offset o on. -/
def patch (l : List Byte) (o : Nat) (v : List Byte) : List Byte := l.take o ++ (v.take (l.length - o)) ++ l.drop (o + v.length)

end Sys2Proof

namespace Sys2Proof.Machine

/-- The fields of a TX control word (R287). -/
def TxFrame.len (f : TxFrame) : Nat := f.ctl.toNat % 2 ^ 14
def TxFrame.ts2 (f : TxFrame) : Bool := f.ctl.getLsbD 14
def TxFrame.ts1 (f : TxFrame) : Bool := f.ctl.getLsbD 15
def TxFrame.tag (f : TxFrame) : Nat := f.ctl.toNat / 2 ^ 16 % 256
def TxFrame.tsOffset (f : TxFrame) : Nat := f.ctl.toNat / 2 ^ 24 % 256
def TxFrame.csumOffset (f : TxFrame) : Nat := f.ctl.toNat / 2 ^ 32 % 256

/-- A TS1 stamp that does not fit the frame (R299). -/
def TxFrame.tsReject (f : TxFrame) : Bool := f.ts1 && decide (f.len < f.tsOffset + 10)

/-! ## Configuration (R281, R284) -/

/-- A MAC has port p in its configuration. -/
def MacSt.hasPort (m : MacSt) (p : Nat) : Bool := m.config != 0 && decide (p < 2 ^ (m.config.toNat - 1))

/-- Port p of MAC m works: the device is on, the quad is in ETHERNET mode, and the configuration has the port (R281). -/
def State.macPort (s : State) (m p : Nat) : Bool := s.on && s.quadMode m == 1 && (s.macAt m).hasPort p

/-- `MAC_PORT_CTRL`: TX_EN, RX_EN, FC and TX_QUANTA. -/
def MacPort.txEn (p : MacPort) : Bool := p.ctrl.getLsbD 0
def MacPort.rxEn (p : MacPort) : Bool := p.ctrl.getLsbD 1
def MacPort.fc (p : MacPort) : Nat := field p.ctrl 2 2
def MacPort.quanta (p : MacPort) : BitVec 16 := BitVec.ofNat 16 (field p.ctrl 16 16)

/-- The fields of `MAC_TXQ_CFG` and `MAC_RXQ_CFG`. -/
def MacQ.enable (q : MacQ) : Bool := q.cfg.getLsbD 0
def MacQ.ring (q : MacQ) : Bool := q.cfg.getLsbD 1
def MacQ.owner (q : MacQ) : MasterId := BitVec.ofNat 6 (field q.cfg 16 6)
def MacQ.txPort (q : MacQ) : Nat := field q.cfg 2 2
def MacQ.prio (q : MacQ) : Nat := field q.cfg 4 3
def MacQ.txClass (q : MacQ) : Nat := field q.cfg 7 3
def MacQ.rxPort (q : MacQ) (p : Nat) : Bool := q.cfg.getLsbD (2 + p)
def MacQ.rxClass (q : MacQ) : Nat := field q.cfg 6 3

/-- Who may use a queue's window: OWNER, or master 7 in RING mode (R284). -/
def MacQ.user (q : MacQ) : MasterId := if q.ring then 7 else q.owner

/-- Bytes of a queue's share in use, and left. -/
def MacQ.used (q : MacQ) : Nat :=
  q.frames.foldl (fun a f => a + f.data.length) ((q.openFrame.map fun f => f.2.length).getD 0) +
    q.packets.foldl (fun a p => a + p.length) 0
def MacQ.room (q : MacQ) : Nat := 4096 * q.share - q.used

/-- Occupancy of an RX queue in 64 B units. -/
def MacQ.occ (q : MacQ) : Nat := (q.used + 63) / 64

/-- n quanta in ns at a port's rate (R296). -/
def MacSt.quantaNs (m : MacSt) (n : Nat) : Nat := (n * 128 * 2 ^ (m.config.toNat - 1) + 99) / 100

/-- How long n bytes take at a port's rate, in 1/256 ns (Table 11.1). -/
def MacSt.wireTime (m : MacSt) (n : Nat) : Nat := n * 256 * 2 ^ (m.config.toNat - 1) / 50

/-- A statistic of Table 11.5 counts up. -/
def State.macStat (s : State) (m p i n : Nat) : State :=
  s.modPort m p fun x => { x with stat := x.stat.mod 0 i (· + BitVec.ofNat 64 n) }

/-- PTP time, in 1/256 ns, at a system time (R298). -/
def MacSt.ptpAt (m : MacSt) (t : Stamp) : Stamp := t + BitVec.ofInt 72 (256 * m.ptp.toInt)

/-- A time moved by ps. -/
def addPs (t : Stamp) (ps : Int) : Stamp := t + BitVec.ofInt 72 (ps * 256 / 1000)

/-! ## Flow control sent (R297) -/

/-- A queue's XOFF after its occupancy has changed. -/
def MacQ.level (q : MacQ) : MacQ :=
  let hi := field q.thresh 0 16
  { q with xoff := hi != 0 && (if hi ≤ q.occ then true else if q.occ ≤ field q.thresh 16 16 then false else q.xoff) }

/-- The classes for which some queue of port p asserts XOFF; under PAUSE all of them count as class 0. -/
def MacSt.wants (m : MacSt) (p c : Nat) : Bool :=
  let fc := (m.ports.getD p {}).fc
  fc != 0 && fc != 3 && (List.range 16).any fun q =>
    let x := m.queues.getD (16 + q) {}
    x.xoff && x.rxPort p && (if fc = 1 then c == 0 else x.rxClass == c)

/-- A control frame joins the port's queue: PFC for a class, or PAUSE. -/
def MacPort.control (x : MacPort) (c : Nat) (quanta : BitVec 16) (now : Nat) : MacPort :=
  { x with ctlOut := x.ctlOut ++ [(if x.fc = 2 then some (Fin.ofNat 8 c) else none, quanta)], xoffAt := x.xoffAt.set 0 c now }

/-- One class of one port follows its queues: XOFF with TX_QUANTA, or quanta 0 once the last of them releases. -/
def State.syncClass (s : State) (m p c : Nat) : State :=
  let want := (s.macAt m).wants p c
  if want = (s.portAt m p).xoff.getLsbD c then s
  else s.modPort m p fun x => { x.control c (if want then x.quanta else 0) s.now with xoff := setBit x.xoff c want }

/-- The ports follow the thresholds of RX queue q. -/
def State.syncXoff (s : State) (m q : Nat) : State :=
  forN 4 (fun p s => forN 8 (fun c s => s.syncClass m p c) s) (s.modMacQ m (16 + q) MacQ.level)

/-! ## RX queues (R288 to R290, R295) -/

/-- The stale timer: it runs while a packet is left, and restarts on a wait, a drop or a ring delivery (R290). -/
def MacQ.timer (q : MacQ) (now : Nat) (restart : Bool) : MacQ :=
  { q with stale := q.stale && !restart
           staleFrom := if q.packets.isEmpty then none else if restart then some now else some (q.staleFrom.getD now) }

/-- What is left of a head packet after n bytes are taken. -/
def MacQ.take (q : MacQ) (n : Nat) : MacQ :=
  match q.packets with
  | [] => q
  | k :: r => { q with packets := if k.length ≤ n then r else k.drop n :: r }

/-- Zero bytes up to a multiple of 64. -/
def pad64 (l : List Byte) : List Byte := l ++ List.replicate ((64 - l.length % 64) % 64) 0

/-- The status beat (Table 11.3). -/
def statusBeat (len port pcp : Nat) (tagged : Bool) (entry : Nat) (t : Stamp) : List Byte :=
  leBytes (len + port * 2 ^ 14 + pcp * 2 ^ 16 + tagged.toNat * 2 ^ 19 + entry * 2 ^ 20) 8 ++ leBytes (t.toNat / 256) 8 ++
    leBytes (t.toNat % 256) 1 ++ List.replicate 47 0

/-- EtherType 0x8808, a MAC control frame. -/
def isMacControl (f : List Byte) : Bool := beNat ((f.drop 12).take 2) == 0x8808

/-- A frame has a VLAN tag (R293). -/
def isTagged (f : List Byte) : Bool := let t := beNat ((f.drop 12).take 2); t == 0x8100 || t == 0x88A8

/-- PCP and steering index of a frame (R293). -/
def MacSt.pcp (m : MacSt) (f : List Byte) : Nat := if isTagged f then leAt f 14 1 / 32 else m.defaultPcp.toNat
def MacSt.steerIndex (m : MacSt) (f : List Byte) : Nat := m.pcp f * 32 + crc32 (f.take 6) % 32

/-- A frame is discarded before its queue, and counted. -/
def State.rxDropped (s : State) (m p : Nat) : State := s.macStat m p 8 1

/-- The steering entry as it stood when a frame's first byte arrived; a write in that cycle comes after it (R294). -/
def MacSt.steerAt (m : MacSt) (i first : Nat) : BitVec 5 :=
  match m.steerWas.find? fun w => decide (first ≤ w.1) && w.2.1 == i with
  | some w => w.2.2
  | none => m.steer.getD i 0

/-- A write to a steering entry (R294). No frame takes a microsecond. -/
def MacSt.steerWrite (m : MacSt) (i now : Nat) (v : BitVec 5) : MacSt :=
  { m with steer := m.steer.set 0 i v
           steerWas := (m.steerWas.filter fun w => decide (now < w.1 + 1000)) ++ [(now, i, m.steer.getD i 0)] }

/-- A good data frame, whose first byte came at local time `first`, `ago` 1/256 ns before its end, is steered and deposited, or
dropped (R288, R293 to R295). `f` has no FCS. -/
def State.rxData (s : State) (m p : Nat) (f : List Byte) (first ago : Nat) : State :=
  let x := s.macAt m
  let i := x.steerIndex f
  let e := x.steerAt i first
  let q := field e 0 4
  let qs := s.macQAt m (16 + q)
  if e.getLsbD 4 || !qs.enable then s.rxDropped m p
  else
    let t := addPs (x.ptpAt (s.time.sys - BitVec.ofNat 72 ago)) (-(field (s.portAt m p).tsAdj 0 16 : Int))
    let k := statusBeat f.length p (x.pcp f) (isTagged f) i t ++ pad64 f
    if qs.room < k.length then (s.rxDropped m p).modMacQ m (16 + q) fun y => { y with drops := satInc y.drops }
    else
      let s := s.modMacQ m (16 + q) fun y => ({ y with packets := y.packets ++ [k] } : MacQ).timer s.now false
      ((s.macStat m p 3 1).macStat m p 4 (f.length + 4)).syncXoff m q

/-- A PAUSE or PFC timer is loaded (R296). -/
def State.loadPause (s : State) (m p : Nat) (cls : Option Nat) (quanta : Nat) : State :=
  let t := if quanta = 0 then none else some (s.now + (s.macAt m).quantaNs quanta)
  s.modPort m p fun x =>
    match cls with
    | none => { x with pause := t }
    | some c => { x with pfc := x.pfc.set none c t }

/-- A control frame is valid for its port's FC and acts, or is counted as unsupported (R296). -/
def State.rxControl (s : State) (m p : Nat) (f : List Byte) : State :=
  let x := s.portAt m p
  let dst := beNat (f.take 6)
  let op := beNat ((f.drop 14).take 2)
  let word (o : Nat) : Nat := beNat ((f.drop o).take 2)
  if !(dst == 0x0180C2000001 || dst == x.addr.toNat) then s.macStat m p 9 1
  else if x.fc = 1 ∧ op = 1 then (s.macStat m p 5 1).loadPause m p none (word 16)
  else if x.fc = 2 ∧ op = 0x101 then
    (List.range 8).foldl (fun s c => if (word 16).testBit c then s.loadPause m p (some c) (word (18 + 2 * c)) else s) (s.macStat m p 5 1)
  else s.macStat m p 9 1

/-- The last four bytes of a frame are its FCS (R283). -/
def fcsOk (frame : List Byte) : Bool :=
  decide (4 ≤ frame.length) && leAt frame (frame.length - 4) 4 == crc32 (frame.take (frame.length - 4))

/-- The last byte of a frame arrives on a port whose link is up. A frame that RX_EN cut short is dropped, and one whose first
byte came while RX_EN was 0 is ignored (R300); any other is checked for FCS and length (R283), and then steered or, with
EtherType 0x8808, taken as a control frame. -/
def State.rxFrame (s : State) (m p : Nat) (frame : List Byte) : State :=
  let x := s.portAt m p
  let ago := (s.macAt m).wireTime frame.length
  let first := s.now - ago / 256
  if !s.macPort m p || !x.up then s
  else if first < x.rxOffAt then s.rxDropped m p
  else if !x.rxEn || first < x.rxOnAt then s
  else if !fcsOk frame then s.macStat m p 6 1
  else if frame.length < 64 ∨ x.maxFrame.toNat < frame.length then s.macStat m p 7 1
  else
    let f := frame.take (frame.length - 4)
    if isMacControl f then s.rxControl m p f else s.rxData m p f first ago

/-- FEC codewords that a port has corrected, and could not correct, since its last frame (Table 11.5). -/
def State.fecSeen (s : State) (m p ce ue : Nat) : State := if s.macPort m p then (s.macStat m p 10 ce).macStat m p 11 ue else s

/-! ## Queue windows (R286 to R289) -/

/-- The MAC, the queue (RX from 16) and the offset within its window. -/
def macWindow (h : Hdr) : Nat × Nat × Nat :=
  let o := h.addr.toNat - 0x15000000000
  (o / 0x200000, o % 0x200000 / 0x10000, o % 0x10000)

/-- The forms that the windows know (R287, R289); any other completes with DECODE. -/
inductive MacForm where
  | control | data | wait | drop
deriving DecidableEq, Repr

def macForm (h : Hdr) : Option MacForm :=
  let w := macWindow h
  if w.2.1 < 16 then
    if h.isWrite && w.2.2 == 0x2000 && h.bytes == 8 then some .control
    else if h.isWrite && decide (w.2.2 < 0x1000) then some .data else none
  else if h.isRead && w.2.2 == 0 && h.bytes % 64 == 0 then some .wait
  else if h.isWrite && w.2.2 == 0x40 && h.bytes == 8 then some .drop else none

/-- The largest LEN of a control word: MAX_FRAME less the FCS, on the queue's port. -/
def State.txMax (s : State) (m q : Nat) : Nat := (s.portAt m (s.macQAt m q).txPort).maxFrame.toNat - 4

/-- The answer to a write on a TX queue (R287); LEN outside its range completes with DECODE (notes/assumptions/59.md). -/
def State.txAnswer (s : State) (m q : Nat) (control : Bool) (data : List Byte) : Err :=
  let x := s.macQAt m q
  let w := leNat (data.take 8)
  let bad := match control, x.openFrame with
    | true, some _ => true
    | true, none => w / 2 ^ 40 != 0 || decide (w % 2 ^ 14 < 14) || decide (s.txMax m q < w % 2 ^ 14)
    | false, none => true
    | false, some (c, l) => decide (c.toNat % 2 ^ 14 < l.length + data.length)
  if bad then .decode
  else if !x.enable then .queueOff
  else if !control && decide (x.room < data.length) then .busy
  else .ok

/-- An accepted write: a control word opens a frame, and data completes it once LEN bytes are there. -/
def MacQ.store (q : MacQ) (control : Bool) (data : List Byte) : MacQ :=
  let q := { q with full := false }
  if control then { q with openFrame := some (BitVec.ofNat 64 (leNat (data.take 8)), []) }
  else match q.openFrame with
    | none => q
    | some (c, l) =>
      let l := l ++ data
      if l.length = c.toNat % 2 ^ 14 then { q with openFrame := none, frames := q.frames ++ [{ ctl := c, data := l, desc := none }] }
      else { q with openFrame := some (c, l) }

/-- A write on a TX queue's window (R284, R287). -/
def State.txWrite (s : State) (control : Bool) (p : Packet) : State :=
  let w := macWindow p.hdr
  if s.acting p.hdr ≠ (s.macQAt w.1 w.2.1).user then (s.denyOwner p.hdr 29 false).respond p .accessDenied []
  else
    let e := s.txAnswer w.1 w.2.1 control p.data
    let s := if e = .ok then s.modMacQ w.1 w.2.1 fun q => q.store control p.data
      else if e = .busy then s.modMacQ w.1 w.2.1 fun q => { q with full := true } else s
    s.respond p e []

/-- A wait on an RX queue (R289). -/
def State.rxWait (s : State) (p : Packet) : State :=
  let w := macWindow p.hdr
  let q := s.macQAt w.1 w.2.1
  if s.acting p.hdr ≠ q.user then (s.denyOwner p.hdr 29 true).respond p .accessDenied []
  else match q.packets with
    | [] => s.respond p (if q.enable then .busy else .queueOff) []
    | k :: _ =>
      let s := s.respond p .ok (k.take p.hdr.bytes)
      (s.modMacQ w.1 w.2.1 fun q => (q.take p.hdr.bytes).timer s.now true).syncXoff w.1 (w.2.1 - 16)

/-- A drop on an RX queue (R289): the rest of the head packet goes. -/
def State.rxDrop (s : State) (p : Packet) : State :=
  let w := macWindow p.hdr
  if s.acting p.hdr ≠ (s.macQAt w.1 w.2.1).user then (s.denyOwner p.hdr 29 false).respond p .accessDenied []
  else
    let s := s.respond p .ok []
    (s.modMacQ w.1 w.2.1 fun q => ({ q with packets := q.packets.drop 1 } : MacQ).timer s.now true).syncXoff w.1 (w.2.1 - 16)

/-! ## Transmission (R285, R296, R299) -/

/-- A queue is paused: by the port's timer under PAUSE, by its class's under PFC. -/
def timerRuns (now : Nat) : Option Nat → Bool | some t => decide (now < t) | none => false
def MacPort.paused (x : MacPort) (now : Nat) (q : MacQ) : Bool :=
  (x.fc == 1 && timerRuns now x.pause) || (x.fc == 2 && timerRuns now (x.pfc.getD q.txClass none))

/-- The queue a port serves next: the highest PRIO, and round-robin after the queue served last in it (R285). Complete frames
of a disabled queue are still sent (R300). -/
def MacSt.nextQueue (m : MacSt) (p now : Nat) : Option Nat :=
  let x := m.ports.getD p {}
  let ready := (List.range 16).filter fun q =>
    let y := m.queues.getD q {}
    y.txPort == p && !y.frames.isEmpty && !x.paused now y
  let top := ready.foldl (fun a q => max a (m.queues.getD q {}).prio) 0
  let r := ready.filter fun q => (m.queues.getD q {}).prio == top
  (r.find? fun q => decide (x.lastQ.getD top 0 < q)).orElse fun _ => r.head?

/-- The bytes on the wire: the one-step stamp, the zeroed checksum, the padding and the FCS (R283, R299). -/
def TxFrame.wire (f : TxFrame) (t : Stamp) : List Byte :=
  let ns := t.toNat / 256
  let d := if f.ts1 && !f.tsReject then
      let d := patch f.data f.tsOffset (beBytes (ns / 1000000000) 6 ++ beBytes (ns % 1000000000) 4)
      if f.csumOffset = 0 then d else patch d f.csumOffset [0, 0]
    else f.data
  let d := d ++ List.replicate (60 - d.length) 0
  d ++ leBytes (crc32 d) 4

/-- The egress time of a frame that starts now (R298). -/
def State.egress (s : State) (m p : Nat) : Stamp :=
  addPs ((s.macAt m).ptpAt s.time.sys) (field (s.portAt m p).tsAdj 16 16)

/-- A port that may send and is not sending starts its next frame; a control frame goes first (R285, R297). -/
def State.txStart (s : State) (m p : Nat) : State :=
  let x := s.portAt m p
  if !s.macPort m p || !x.txEn || !x.up || x.localFault || x.remoteFault || x.sending.isSome || x.sendingCtl.isSome then s
  else match x.ctlOut with
    | c :: r => s.modPort m p fun x =>
      { x with ctlOut := r, sendingCtl := some c, sendFrom := s.now, xoffAt := x.xoffAt.set 0 ((c.1.map (·.val)).getD 0) s.now }
    | [] =>
      match (s.macAt m).nextQueue p s.now with
      | none => s
      | some q =>
        match (s.macQAt m q).frames with
        | [] => s
        | f :: r =>
          let t := s.egress m p
          let prio := (s.macQAt m q).prio
          let s := (s.modMacQ m q fun y => { y with frames := r }).modPort m p fun x =>
            { x with sending := some (q, { f with data := f.wire t }), startAt := t, sendFrom := s.now, lastQ := x.lastQ.set 0 prio q }
          if f.tsReject then s.macStat m p 12 1 else s

/-- HEAD moves on in its ring. -/
def MacQ.advance (q : MacQ) : MacQ := { q with head := BitVec.ofNat 12 ((q.head.toNat + 1) % max 1 q.sizeUse.toNat) }

/-- The address of descriptor i of a ring. -/
def MacQ.descAddr (q : MacQ) (i : Nat) : Nat := q.baseUse.toNat + 32 * i

/-- A store of the descriptor engine: into this device's memories, or left for the place it names. A store that gets an error
answer stores nothing. -/
def State.engineStore (s : State) (m q a : Nat) (l : List Byte) : State :=
  let a := BitVec.ofNat 48 a
  if s.engineAnswer 7 a l.length .ok ≠ .ok then s.noteDenied 7 a true
  else (s.engineWrite a l).getD (s.modMacQ m q fun y => { y with stores := y.stores ++ [(a, l)] })

/-- A descriptor is written back with OWN = 0 (Table 11.4, R292). -/
def State.writeBack (s : State) (m q i : Nat) (w0 : BitVec 64) (w1 w2 w3 : Nat) : State :=
  s.engineStore m q ((s.macQAt m q).descAddr i) (leBytes (w0.toNat % 2 ^ 63) 8 ++ leBytes w1 8 ++ leBytes w2 8 ++ leBytes w3 8)

/-- Word 1 of a TX descriptor with ERR. -/
def txWord1 (w1 : BitVec 64) (err : Nat) : Nat := w1.toNat % 2 ^ 24 + err * 2 ^ 24

/-- A descriptor or buffer access has failed: ERR is recorded and the queue halts. -/
def State.ringHalt (s : State) (m q : Nat) (rx : Bool) (w0 w1 : BitVec 64) (err : Err) : State :=
  let s := s.writeBack m q (s.macQAt m q).head.toNat w0 (txWord1 w1 err.code) 0 0
  let s := s.modMacQ m q fun y => { y with cfg := setBit y.cfg 0 false, openFrame := none, engine := false }
  s.raise .macDescErr (ofFields [(0, m), (8, q % 16), (12, rx.toNat), (16, err.code)])

/-- A descriptor is finished: it is written back and HEAD moves on, or the queue halts where the store fails (R292). -/
def State.finishDesc (s : State) (m q i : Nat) (w0 w1 : BitVec 64) (v1 v2 v3 : Nat) : State :=
  let e := s.engineAnswer 7 (BitVec.ofNat 48 ((s.macQAt m q).descAddr i)) 32 .ok
  if e ≠ .ok then s.ringHalt m q (decide (16 ≤ q)) w0 w1 e
  else (s.writeBack m q i w0 v1 v2 v3).modMacQ m q MacQ.advance

/-- A data frame has been sent: it is counted, its stamp is reported and its descriptor written back (R292, R299). -/
def State.txDone (s : State) (m p q : Nat) (f : TxFrame) : State :=
  let t := (s.portAt m p).startAt
  let s := (s.macStat m p 0 1).macStat m p 1 f.data.length
  match f.desc with
  | some (i, w0, w1) =>
    s.finishDesc m q i w0 w1 (txWord1 w1 0) (if f.ts2 then t.toNat / 256 else 0) (if f.ts2 then t.toNat % 256 else 0)
  | none =>
    if !f.ts2 then s
    else if 16 ≤ (s.portAt m p).txts.length then s.raise .macTxtsOvf (ofFields [(0, m), (5, p)])
    else s.modPort m p fun x =>
      { x with txts := x.txts ++ [(BitVec.ofNat 8 f.tag, BitVec.ofNat 4 q, BitVec.ofNat 64 (t.toNat / 256), BitVec.ofNat 8 t.toNat)] }

/-- The local time at which n bytes, with the 20 of preamble, SFD and gap, have left a port that started them (Table 11.7). -/
def State.sentBy (s : State) (m p n : Nat) : Nat := (s.portAt m p).sendFrom + ((s.macAt m).wireTime (n + 20) + 255) / 256

/-- The frame in transmission ends; a control frame has 64 bytes. -/
def State.txEnd (s : State) (m p : Nat) : State :=
  let x := s.portAt m p
  match x.sendingCtl, x.sending with
  | some _, _ => ((s.advanceTo (s.sentBy m p 64)).modPort m p fun x => { x with sendingCtl := none }).macStat m p 2 1
  | none, some (q, f) => ((s.advanceTo (s.sentBy m p f.data.length)).modPort m p fun x => { x with sending := none }).txDone m p q f
  | none, none => s

/-! ## Rings (R291, R292) -/

/-- A TX descriptor: its frame joins the transmit order; HEAD waits until it has been sent. -/
def State.ringTx (s : State) (m q : Nat) (w0 w1 : BitVec 64) (buf : List Byte) : State :=
  let y := s.macQAt m q
  let len := field w0 48 14
  let busy := y.frames.any (·.desc.isSome) || (List.range 4).any fun p =>
    match (s.portAt m p).sending with | some (j, f) => j == q && f.desc.isSome | none => false
  if busy ∨ y.room < len then s
  else
    let ctl := BitVec.ofNat 64 (len + field w1 0 1 * 2 ^ 14 + field w1 1 1 * 2 ^ 15 + field w1 8 8 * 2 ^ 24 + field w1 16 8 * 2 ^ 32)
    s.modMacQ m q fun y => { y with frames := y.frames ++ [{ ctl := ctl, data := buf.take len, desc := some (y.head.toNat, w0, w1) }] }

/-- An RX descriptor takes the head packet into its buffer, or halts the queue where a buffer store fails. -/
def State.ringRx (s : State) (m q : Nat) (w0 w1 : BitVec 64) (got : Err) : State :=
  match (s.macQAt m q).packets with
  | [] => s
  | k :: r =>
    let len := leAt k 0 2 % 2 ^ 14
    let n := min len (field w0 48 14)
    let e := s.engineAnswer 7 (BitVec.ofNat 48 (field w0 0 48)) n got
    if e ≠ .ok then (s.noteDenied 7 (BitVec.ofNat 48 (field w0 0 48)) true).ringHalt m q true w0 w1 e
    else
    let s := s.engineStore m q (field w0 0 48) ((k.drop 64).take n)
    let v1 := (decide (field w0 48 14 < len)).toNat * 2 ^ 28 + n * 2 ^ 32 + leAt k 0 4 / 2 ^ 14 % 64 * 2 ^ 48
    let s := s.finishDesc m q (s.macQAt m q).head.toNat w0 w1 v1 (leAt k 8 8) (leAt k 16 1)
    (s.modMacQ m q fun y => ({ y with packets := r } : MacQ).timer s.now true).syncXoff m (q - 16)

/-- The engine works the descriptor at HEAD of an enabled ring. What its accesses to a place outside this device's memories
give are the two answers with their bytes (R291, R292). -/
def State.descProcess (s : State) (m q : Nat) (desc buf : Err × List Byte) : State :=
  let y := s.macQAt m q
  if !s.on || !y.enable || !y.ring || !y.engine || y.head == y.tail then s
  else
    let d := s.engineRead 7 (BitVec.ofNat 48 (y.descAddr y.head.toNat)) 32 desc
    let w0 := BitVec.ofNat 64 (leAt d.2 0 8)
    let w1 := BitVec.ofNat 64 (leAt d.2 8 8)
    if d.1 ≠ .ok then (s.noteDenied 7 (BitVec.ofNat 48 (y.descAddr y.head.toNat)) false).ringHalt m q (decide (16 ≤ q)) w0 w1 d.1
    else if !w0.getLsbD 63 then s.modMacQ m q fun y => { y with engine := false }
    else if q < 16 then
      let b := s.engineRead 7 (BitVec.ofNat 48 (field w0 0 48)) (field w0 48 14) buf
      if b.1 ≠ .ok then (s.noteDenied 7 (BitVec.ofNat 48 (field w0 0 48)) false).ringHalt m q false w0 w1 b.1 else s.ringTx m q w0 w1 b.2
    else s.ringRx m q w0 w1 buf.1

/-- A write of TAIL takes effect at once and starts the engine (R291, R302). -/
def State.tailWrite (s : State) (m q : Nat) (v : Word) : State :=
  s.modMacQ m q fun y => { y with tail := BitVec.ofNat 12 v.toNat, engine := true }

/-! ## Enables (R300, R302) -/

/-- A write of `MAC_TXQ_CFG` or `MAC_RXQ_CFG`: clearing ENABLE discards an open frame; setting it takes the ring registers into
use and resumes the engine at HEAD. -/
def State.queueEnable (s : State) (m q : Nat) (v : Word) : State :=
  let was := (s.macQAt m q).enable
  let s := s.modMacQ m q fun y =>
    let y := { y with cfg := v &&& (if q < 16 then 0x3F03FF else 0x3F01FF) }
    if !v.getLsbD 0 then { y with openFrame := none }
    else if was then y else { y with baseUse := y.base, sizeUse := y.size, engine := true }
  if q < 16 then s else s.syncXoff m (q - 16)

/-- A write of `MAC_PORT_CTRL`. -/
def State.portCtrl (s : State) (m p : Nat) (v : Word) : State :=
  let s := s.modPort m p fun x =>
    { x with ctrl := v &&& 0xFFFF000F, rxOffAt := if x.rxEn && !v.getLsbD 1 then s.now else x.rxOffAt
             rxOnAt := if !x.rxEn && v.getLsbD 1 then s.now else x.rxOnAt }
  forN 8 (fun c s => s.syncClass m p c) s

/-! ## Registers (Table 11.6) -/

/-- A register of a MAC's port, queue or MAC block, by its offset in the block. -/
def State.portRead (s : State) (m p o : Nat) : Option Word :=
  let x := s.portAt m p
  if o = 0 then some x.ctrl
  else if o = 4 then
    let paused := (List.range 8).foldl (fun a c => if timerRuns s.now (x.pfc.getD c none) then a + 2 ^ c else a) 0
    some (ofFields [(0, x.up.toNat), (1, x.localFault.toNat), (2, x.remoteFault.toNat), (3, (timerRuns s.now x.pause).toNat), (4, paused),
      (12, x.xoff.toNat)])
  else if o = 8 then some (BitVec.ofNat 32 x.addr.toNat)
  else if o = 0xC then some (BitVec.ofNat 32 (x.addr.toNat / 2 ^ 32))
  else if o = 0x10 then some (ofFields [(0, x.maxFrame.toNat)])
  else if o = 0x14 then some x.tsAdj
  else if o = 0x18 then
    some (match x.txts with
      | [] => 0
      | (tag, q, _, frac) :: _ => ofFields [(0, 1), (8, tag.toNat), (16, q.toNat), (24, frac.toNat)])
  else if o = 0x1C then some (BitVec.ofNat 32 x.txtsNs.toNat)
  else if o = 0x20 then some (BitVec.ofNat 32 (x.txtsNs.toNat / 2 ^ 32))
  else none

def State.macQRead (s : State) (m q o : Nat) : Option Word :=
  let y := s.macQAt m q
  let rx := decide (16 ≤ q)
  if o = 0 then some y.cfg
  else if o = 4 then
    some (if rx then ofFields [(0, y.occ), (16, y.stale.toNat), (17, y.xoff.toNat)] else ofFields [(0, y.room / 64), (16, y.full.toNat)])
  else if o = 8 then some (BitVec.ofNat 32 y.base.toNat)
  else if o = 0xC then some (BitVec.ofNat 32 (y.base.toNat / 2 ^ 32))
  else if o = 0x10 then some (ofFields [(0, y.size.toNat)])
  else if o = 0x14 then some (ofFields [(0, y.head.toNat)])
  else if o = 0x18 then some (ofFields [(0, y.tail.toNat)])
  else if rx ∧ o = 0x1C then some y.thresh
  else if rx ∧ o = 0x20 then some (ofFields [(0, y.staleLimit.toNat)])
  else if rx ∧ o = 0x24 then some y.drops
  else none

/-- A MAC register at an offset of the MAC blocks (R302). -/
def State.macRead (s : State) (o : Nat) : Option Word :=
  let m := o / 0x8000
  let b := o % 0x8000
  if 24 ≤ m then none
  else if b = 0 then some (ofFields [(0, (s.macAt m).config.toNat), (2, (s.macAt m).defaultPcp.toNat)])
  else if b = 4 then some (BitVec.ofNat 32 (s.macAt m).ptp.toNat)
  else if b = 8 then some (BitVec.ofNat 32 ((s.macAt m).ptp.toNat / 2 ^ 32))
  else if 0x100 ≤ b ∧ b < 0x200 then s.portRead m ((b - 0x100) / 0x40) (b % 0x40)
  else if 0x400 ≤ b ∧ b < 0xC00 then s.macQRead m ((b - 0x400) / 0x40) (b % 0x40)
  else if 0x1000 ≤ b ∧ b < 0x1400 then some (ofFields [(0, ((s.macAt m).steer.getD ((b - 0x1000) / 4) 0).toNat)])
  else if 0x2000 ≤ b ∧ b < 0x2400 ∧ b % 0x100 < 0x70 then
    let v := (s.portAt m ((b - 0x2000) / 0x100)).stat.getD (b % 0x100 / 8) 0
    some (BitVec.ofNat 32 (if b % 8 = 0 then v.toNat else v.toNat / 2 ^ 32))
  else none

/-- What a read of an RC register changes: a stamp is popped, the drop count clears. -/
def State.macClear (s : State) (o : Nat) : State :=
  let m := o / 0x8000
  let b := o % 0x8000
  if 0x100 ≤ b ∧ b < 0x200 ∧ b % 0x40 = 0x18 then
    s.modPort m ((b - 0x100) / 0x40) fun x =>
      match x.txts with
      | [] => x
      | (_, _, ns, _) :: r => { x with txts := r, txtsNs := ns }
  else if 0x800 ≤ b ∧ b < 0xC00 ∧ b % 0x40 = 0x24 then s.modMacQ m ((b - 0x400) / 0x40) fun y => { y with drops := 0 }
  else s

def State.portWrite (s : State) (m p o : Nat) (v : Word) : State :=
  if o = 0 then s.portCtrl m p v
  else s.modPort m p fun x =>
    if o = 8 then { x with addr := setLo x.addr v }
    else if o = 0xC then { x with addr := setHi x.addr v }
    else if o = 0x10 then
      if 64 ≤ field v 0 14 ∧ field v 0 14 ≤ 9600 then { x with maxFrame := BitVec.ofNat 14 v.toNat } else x
    else if o = 0x14 then { x with tsAdj := v }
    else x

/-- A write to a queue register; those of the ring wait for the queue's next enable while ENABLE is 1 (R302). -/
def State.macQWrite (s : State) (m q o : Nat) (v : Word) : State :=
  let use (y : MacQ) : MacQ := if y.enable then y else { y with baseUse := y.base, sizeUse := y.size }
  if o = 0 then s.queueEnable m q v
  else if o = 0x18 then s.tailWrite m q v
  else if o = 0x1C ∧ 16 ≤ q then (s.modMacQ m q fun y => { y with thresh := v }).syncXoff m (q - 16)
  else s.modMacQ m q fun y =>
    if o = 8 then use { y with base := setLo y.base v }
    else if o = 0xC then use { y with base := setHi y.base v }
    else if o = 0x10 then use { y with size := BitVec.ofNat 13 v.toNat }
    else if o = 0x20 ∧ 16 ≤ q then { y with staleLimit := BitVec.ofNat 24 v.toNat }
    else y

/-- A write to a MAC register (R302). -/
def State.macWrite (s : State) (o : Nat) (v : Word) : Option State :=
  let m := o / 0x8000
  let b := o % 0x8000
  if (s.macRead o).isNone then none
  else if b = 0 then some (s.modMac m fun x => { x with defaultPcp := BitVec.ofNat 3 (field v 2 3) })
  else if b = 4 then some (s.modMac m fun x => { x with ptp := BitVec.ofNat 64 (x.ptp.toNat / 2 ^ 32 * 2 ^ 32 + v.toNat) })
  else if b = 8 then some (s.modMac m fun x => { x with ptp := BitVec.ofNat 64 (v.toNat * 2 ^ 32 + x.ptp.toNat % 2 ^ 32) })
  else if 0x100 ≤ b ∧ b < 0x200 then some (s.portWrite m ((b - 0x100) / 0x40) (b % 0x40) v)
  else if 0x400 ≤ b ∧ b < 0xC00 then some (s.macQWrite m ((b - 0x400) / 0x40) (b % 0x40) v)
  else if 0x1000 ≤ b ∧ b < 0x1400 then some (s.modMac m fun x => x.steerWrite ((b - 0x1000) / 4) s.now (BitVec.ofNat 5 v.toNat))
  else some s

/-! ## Commands -/

/-- A request that waits at a MAC window in the form its row names; any other is not the row's. -/
def State.macqForm (s : State) (p : Packet) (f : MacForm) (k : State → State) : State :=
  s.whenOn fun s => if macForm p.hdr = some f then k (s.takeTarget p) else (s.takeTarget p).respond p .decode []

/-- MAC_TX_CONTROL_WORD (R287). -/
def execMacTxControlWord (p : Packet) (s : State) : Host.Outcome State Fault Refusal :=
  .next (s.macqForm p .control fun s => s.txWrite true p)

/-- MAC_TX_DATA (R287). -/
def execMacTxData (p : Packet) (s : State) : Host.Outcome State Fault Refusal := .next (s.macqForm p .data fun s => s.txWrite false p)

/-- MAC_FRAME_TX_START (R285). -/
def execMacFrameTxStart (mac : Fin 24) (port : Fin 4) (s : State) : Host.Outcome State Fault Refusal := .next (s.txStart mac port)

/-- MAC_FRAME_TX_END (R292, R299). -/
def execMacFrameTxEnd (mac : Fin 24) (port : Fin 4) (s : State) : Host.Outcome State Fault Refusal := .next (s.txEnd mac port)

/-- MAC_FRAME_RX (R283, R293): `frame` is the whole frame, with its FCS; `ce` and `ue` are the FEC codewords corrected and not
corrected since the frame before it. -/
def execMacFrameRx (mac : Fin 24) (port : Fin 4) (frame : List Byte) (ce ue : Nat) (s : State) : Host.Outcome State Fault Refusal :=
  .next ((s.fecSeen mac port ce ue).rxFrame mac port frame)

/-- MAC_CONTROL_FRAME_RX (R296). -/
def execMacControlFrameRx (mac : Fin 24) (port : Fin 4) (frame : List Byte) (ce ue : Nat) (s : State) : Host.Outcome State Fault Refusal :=
  .next ((s.fecSeen mac port ce ue).rxFrame mac port frame)

/-- RX_WAIT (R289). -/
def execRxWait (p : Packet) (s : State) : Host.Outcome State Fault Refusal := .next (s.macqForm p .wait fun s => s.rxWait p)

/-- RX_DROP (R289). -/
def execRxDrop (p : Packet) (s : State) : Host.Outcome State Fault Refusal := .next (s.macqForm p .drop fun s => s.rxDrop p)

/-- MAC_RXQ_STALE (R290). -/
def execMacRxqStale (mac : Fin 24) (q : Fin 16) (s : State) : Host.Outcome State Fault Refusal :=
  .next (let y := s.macQAt mac (16 + q)
    match y.staleFrom with
    | none => s
    | some t =>
      if y.staleLimit = 0 ∨ y.stale then s
      else ((s.advanceTo (t + y.staleLimit.toNat)).modMacQ mac (16 + q) fun y => { y with stale := true }).raise .macRxqStale
        (ofFields [(0, mac.val), (8, q.val)]))

/-- A queue's index among its MAC's: TX queues first. -/
def queueIndex (dir : Dir) (q : Fin 16) : Nat := match dir with | .tx => q.val | .rx => 16 + q.val

/-- MAC_Q_TAIL_WRITE (R291). -/
def execMacQTailWrite (m : MasterId) (mac : Fin 24) (dir : Dir) (q : Fin 16) (val : Word) (s : State) : Host.Outcome State Fault Refusal :=
  .next (s.regWrite m (BitVec.ofNat 48 (0xB00418 + 0x8000 * mac.val + 0x40 * queueIndex dir q)) fun s =>
    s.tailWrite mac (queueIndex dir q) val)

/-- MAC_DESC_PROCESS (R291, R292): `desc` and `buf` answer accesses to places outside this device's memories. -/
def execMacDescProcess (mac : Fin 24) (dir : Dir) (q : Fin 16) (desc buf : Err × List Byte) (s : State) :
    Host.Outcome State Fault Refusal :=
  .next (s.descProcess mac (queueIndex dir q) desc buf)

/-- PAUSE_TIMER_EXPIRE (R296). -/
def execPauseTimerExpire (mac : Fin 24) (port : Fin 4) (cls : Option (Fin 8)) (s : State) : Host.Outcome State Fault Refusal :=
  let x := s.portAt mac port
  let t := match cls with | none => x.pause | some c => x.pfc.getD c none
  .next (match t with
    | none => s
    | some t => (s.advanceTo t).loadPause mac port (cls.map (·.val)) 0)

/-- PAUSE_REPEAT (R297). -/
def execPauseRepeat (mac : Fin 24) (port : Fin 4) (cls : Option (Fin 8)) (s : State) : Host.Outcome State Fault Refusal :=
  let x := s.portAt mac port
  let c := match cls with | none => 0 | some c => c.val
  .next (if x.xoff.getLsbD c then
      let s := s.advanceTo (x.xoffAt.getD c 0 + (s.macAt mac).quantaNs (x.quanta.toNat / 2))
      s.modPort mac port fun x => x.control c x.quanta s.now
    else s)

/-- MAC_TXTS_POP (R299). -/
def execMacTxtsPop (m : MasterId) (mac : Fin 24) (port : Fin 4) (s : State) : Host.Outcome State Fault Refusal :=
  let o := 0x8000 * mac.val + 0x118 + 0x40 * port.val
  .next (s.access m (BitVec.ofNat 48 (0xB00000 + o)) false fun s => (s.macClear o).answer m .ok ((s.macRead o).getD 0))

/-- MAC_PORT_LINK_CHANGE (R282, R283): the link's state, and the faults now signalled. -/
def execMacPortLinkChange (mac : Fin 24) (port : Fin 4) (up localFault remoteFault : Bool) (s : State) :
    Host.Outcome State Fault Refusal :=
  .next (if !s.macPort mac port then s
    else
      let was := (s.portAt mac port).up
      let s := s.modPort mac port fun x => { x with up := up, localFault := localFault, remoteFault := remoteFault }
      let det := ofFields [(0, mac.val), (5, port.val)]
      if up && !was then s.raise .macLinkUp det
      else if was && !up then (s.macStat mac port 13 1).raise .macLinkDown det
      else s)

/-- MAC_ENABLE_WRITE (R300): a write to a port's or a queue's enable register. -/
def execMacEnableWrite (m : MasterId) (addr : Addr) (val : Word) (s : State) : Host.Outcome State Fault Refusal :=
  let o := addr.toNat - 0xB00000
  let b := o % 0x8000
  let known := decide (0xB00000 ≤ addr.toNat ∧ o < 0xC0000 ∧ b % 0x40 = 0 ∧ (0x100 ≤ b ∧ b < 0x200 ∨ 0x400 ≤ b ∧ b < 0xC00))
  .next (s.regTry m addr fun s => if known then ((s.macWrite o val).getD s, .ok) else (s, .decode))

end Sys2Proof.Machine
end

