-- ==== Sys2Proof/Machine/Rv32.lean ====
section
/-! DEFINITION. The instruction set of the Brock cores, RV32IMC with machine mode (R324), as FEED and STEP execute it. R324
takes it from the RISC-V specifications, which lie outside the manual (PRESUMED, notes/assumptions/60.md). -/

namespace Sys2Proof.Machine

/-- An instruction, after decoding; register numbers are below 32. -/
inductive Rv where
  | lui (rd : Nat) (imm : Word)
  | auipc (rd : Nat) (imm : Word)
  | jal (rd : Nat) (off : Word)
  | jalr (rd rs : Nat) (off : Word)
  | branch (f3 rs1 rs2 : Nat) (off : Word)
  | load (f3 rd rs : Nat) (off : Word)
  | store (f3 rs1 rs2 : Nat) (off : Word)
  | opImm (f3 : Nat) (alt : Bool) (rd rs : Nat) (imm : Word)
  | op (f3 : Nat) (alt : Bool) (rd rs1 rs2 : Nat)
  | mul (f3 rd rs1 rs2 : Nat)
  | fence
  | csr (f3 n rd rs : Nat)
  | ecall | ebreak | mret | wfi
deriving DecidableEq, Repr

/-- Sign-extend the low n bits of x. -/
def sx (n x : Nat) : Word := (BitVec.ofNat n x).signExtend 32

/-- Bits of x placed at new positions: (from, width, to). -/
def gather (x : Nat) (l : List (Nat × Nat × Nat)) : Nat := l.foldl (fun a b => a + bits x b.1 b.2.1 * 2 ^ b.2.2) 0

/-- A 32-bit encoding. -/
def decode32 (x : Nat) : Option Rv :=
  let rd := bits x 7 5
  let f3 := bits x 12 3
  let rs1 := bits x 15 5
  let rs2 := bits x 20 5
  let f7 := bits x 25 7
  let immI := sx 12 (bits x 20 12)
  match bits x 0 7 with
  | 0x37 => some (.lui rd (BitVec.ofNat 32 (bits x 12 20 * 4096)))
  | 0x17 => some (.auipc rd (BitVec.ofNat 32 (bits x 12 20 * 4096)))
  | 0x6F => some (.jal rd (sx 21 (gather x [(21, 10, 1), (20, 1, 11), (12, 8, 12), (31, 1, 20)])))
  | 0x67 => if f3 = 0 then some (.jalr rd rs1 immI) else none
  | 0x63 =>
    if f3 = 2 ∨ f3 = 3 then none
    else some (.branch f3 rs1 rs2 (sx 13 (gather x [(8, 4, 1), (25, 6, 5), (7, 1, 11), (31, 1, 12)])))
  | 0x03 => if f3 = 3 ∨ 6 ≤ f3 then none else some (.load f3 rd rs1 immI)
  | 0x23 => if 3 ≤ f3 then none else some (.store f3 rs1 rs2 (sx 12 (gather x [(7, 5, 0), (25, 7, 5)])))
  | 0x13 =>
    if f3 = 1 then (if f7 = 0 then some (.opImm 1 false rd rs1 (BitVec.ofNat 32 rs2)) else none)
    else if f3 = 5 then
      (if f7 = 0 ∨ f7 = 0x20 then some (.opImm 5 (f7 == 0x20) rd rs1 (BitVec.ofNat 32 rs2)) else none)
    else some (.opImm f3 false rd rs1 immI)
  | 0x33 =>
    if f7 = 1 then some (.mul f3 rd rs1 rs2)
    else if f7 = 0 then some (.op f3 false rd rs1 rs2)
    else if f7 = 0x20 ∧ (f3 = 0 ∨ f3 = 5) then some (.op f3 true rd rs1 rs2)
    else none
  | 0x0F => if f3 = 0 then some .fence else none
  | 0x73 =>
    if f3 = 0 then
      match bits x 7 25 with
      | 0 => some .ecall
      | 0x2000 => some .ebreak
      | 0x604000 => some .mret
      | 0x20A000 => some .wfi
      | _ => none
    else if f3 = 4 then none
    else some (.csr f3 (bits x 20 12) rd rs1)
  | _ => none

/-- A compressed encoding. -/
def decode16 (x : Nat) : Option Rv :=
  let f3 := bits x 13 3
  let r' := 8 + bits x 7 3
  let s' := 8 + bits x 2 3
  let rd := bits x 7 5
  let rs2 := bits x 2 5
  let imm6 := sx 6 (gather x [(2, 5, 0), (12, 1, 5)])
  let shamt := BitVec.ofNat 32 (bits x 2 5)
  let lwOff := BitVec.ofNat 32 (gather x [(6, 1, 2), (10, 3, 3), (5, 1, 6)])
  let jOff := sx 12 (gather x [(3, 3, 1), (11, 1, 4), (2, 1, 5), (7, 1, 6), (6, 1, 7), (9, 2, 8), (8, 1, 10), (12, 1, 11)])
  let bOff := sx 9 (gather x [(3, 2, 1), (10, 2, 3), (2, 1, 5), (5, 2, 6), (12, 1, 8)])
  match bits x 0 2, f3 with
  | 0, 0 =>
    let n := gather x [(6, 1, 2), (5, 1, 3), (11, 2, 4), (7, 4, 6)]
    if n = 0 then none else some (.opImm 0 false s' 2 (BitVec.ofNat 32 n))
  | 0, 2 => some (.load 2 s' r' lwOff)
  | 0, 6 => some (.store 2 r' s' lwOff)
  | 1, 0 => some (.opImm 0 false rd rd imm6)
  | 1, 1 => some (.jal 1 jOff)
  | 1, 2 => some (.opImm 0 false rd 0 imm6)
  | 1, 3 =>
    if rd = 2 then
      let n := gather x [(6, 1, 4), (2, 1, 5), (5, 1, 6), (3, 2, 7), (12, 1, 9)]
      if n = 0 then none else some (.opImm 0 false 2 2 (sx 10 n))
    else if imm6 = 0 then none
    else some (.lui rd (imm6 <<< 12))
  | 1, 4 =>
    match bits x 10 2 with
    | 0 => if x.testBit 12 then none else some (.opImm 5 false r' r' shamt)
    | 1 => if x.testBit 12 then none else some (.opImm 5 true r' r' shamt)
    | 2 => some (.opImm 7 false r' r' imm6)
    | _ =>
      if x.testBit 12 then none
      else match bits x 5 2 with
        | 0 => some (.op 0 true r' r' s')
        | 1 => some (.op 4 false r' r' s')
        | 2 => some (.op 6 false r' r' s')
        | _ => some (.op 7 false r' r' s')
  | 1, 5 => some (.jal 0 jOff)
  | 1, 6 => some (.branch 0 r' 0 bOff)
  | 1, 7 => some (.branch 1 r' 0 bOff)
  | 2, 0 => if x.testBit 12 then none else some (.opImm 1 false rd rd shamt)
  | 2, 2 => if rd = 0 then none else some (.load 2 rd 2 (BitVec.ofNat 32 (gather x [(4, 3, 2), (12, 1, 5), (2, 2, 6)])))
  | 2, 4 =>
    if x.testBit 12 then
      if rs2 = 0 then (if rd = 0 then some .ebreak else some (.jalr 1 rd 0)) else some (.op 0 false rd rd rs2)
    else if rs2 = 0 then (if rd = 0 then none else some (.jalr 0 rd 0))
    else some (.op 0 false rd 0 rs2)
  | 2, 6 => some (.store 2 2 rs2 (BitVec.ofNat 32 (gather x [(9, 4, 2), (7, 2, 6)])))
  | _, _ => none

/-- An instruction word and its length: compressed where bits 1:0 are not 3. -/
def rvLength (x : Nat) : Nat := if x % 4 = 3 then 4 else 2
def rvDecode (x : Nat) : Option Rv := if x % 4 = 3 then decode32 x else if x / 65536 = 0 then decode16 x else none

/-! ## Arithmetic -/

/-- The operations of OP and OP-IMM. -/
def rvAlu (f3 : Nat) (alt : Bool) (a b : Word) : Word :=
  match f3 with
  | 0 => if alt then a - b else a + b
  | 1 => a <<< (b.toNat % 32)
  | 2 => if a.slt b then 1 else 0
  | 3 => if a.ult b then 1 else 0
  | 4 => a ^^^ b
  | 5 => if alt then a.sshiftRight (b.toNat % 32) else a >>> (b.toNat % 32)
  | 6 => a ||| b
  | _ => a &&& b

/-- The M extension: division by 0 gives all ones, or the dividend as remainder; the signed overflow wraps. -/
def rvMul (f3 : Nat) (a b : Word) : Word :=
  match f3 with
  | 0 => a * b
  | 1 => BitVec.ofInt 32 (a.toInt * b.toInt / 2 ^ 32)
  | 2 => BitVec.ofInt 32 (a.toInt * b.toNat / 2 ^ 32)
  | 3 => BitVec.ofNat 32 (a.toNat * b.toNat / 2 ^ 32)
  | 4 => if b = 0 then BitVec.allOnes 32 else BitVec.ofInt 32 (a.toInt.tdiv b.toInt)
  | 5 => if b = 0 then BitVec.allOnes 32 else BitVec.ofNat 32 (a.toNat / b.toNat)
  | 6 => if b = 0 then a else BitVec.ofInt 32 (a.toInt.tmod b.toInt)
  | _ => if b = 0 then a else BitVec.ofNat 32 (a.toNat % b.toNat)

/-- A branch is taken. -/
def rvTaken (f3 : Nat) (a b : Word) : Bool :=
  match f3 with
  | 0 => a == b
  | 1 => a != b
  | 4 => a.slt b
  | 5 => !a.slt b
  | 6 => a.ult b
  | _ => !a.ult b

/-! ## Registers of a pair -/

def Pair.reg (p : Pair) (i : Nat) : Word := if i = 0 then 0 else p.regs.getD i 0
def Pair.setReg (p : Pair) (i : Nat) (v : Word) : Pair := if i = 0 then p else { p with regs := p.regs.set 0 i v }

/-- IRQ_PEND (Table 13.2). -/
def State.irqPend (s : State) (p : Nat) : BitVec 3 :=
  let x := s.pairAt p
  BitVec.ofNat 3 ((s.evt.brkPend.getLsbD p).toNat + 2 * x.irqMailbox.toNat + 4 * x.irqDoorbell.toNat)

/-- The machine timer interrupt: MTIME has reached MTIMECMP (Table 13.2). -/
def State.mtip (s : State) (p : Nat) : Bool := s.time.sysOn && decide ((s.pairAt p).mtimecmp.toNat ≤ s.sysNs)

/-- The machine external interrupt. -/
def State.meip (s : State) (p : Nat) : Bool := s.irqPend p &&& (s.pairAt p).irqEn != 0

/-- A machine CSR (R324); none is an illegal instruction. -/
def State.rvCsr (s : State) (p n : Nat) : Option Word :=
  let x := s.pairAt p
  match n with
  | 0x300 => some (ofFields [(3, x.mie.toNat), (7, x.mpie.toNat), (11, 3)])
  | 0x301 => some 0x40001104
  | 0x304 => some x.mieReg
  | 0x305 => some x.mtvec
  | 0x340 => some x.mscratch
  | 0x341 => some x.mepc
  | 0x342 => some x.mcause
  | 0x343 => some x.mtval
  | 0x344 => some (ofFields [(7, (s.mtip p).toNat), (11, (s.meip p).toNat)])
  | 0xB00 => some (BitVec.ofNat 32 x.mcycle.toNat)
  | 0xB80 => some (BitVec.ofNat 32 (x.mcycle.toNat / 2 ^ 32))
  | 0xB02 => some (BitVec.ofNat 32 x.minstret.toNat)
  | 0xB82 => some (BitVec.ofNat 32 (x.minstret.toNat / 2 ^ 32))
  | 0xF11 => some 0
  | 0xF12 => some 0
  | 0xF13 => some (BitVec.ofNat 32 (s.fuse 72 4))
  | 0xF14 => some (BitVec.ofNat 32 p)
  | 0x7C0 => some x.ddata
  | _ => none

/-- A write of a machine CSR that the pair implements. -/
def Pair.writeCsr (x : Pair) (n : Nat) (v : Word) : Pair :=
  let lo (w : BitVec 64) : BitVec 64 := BitVec.ofNat 64 (w.toNat / 2 ^ 32 * 2 ^ 32 + v.toNat)
  let hi (w : BitVec 64) : BitVec 64 := BitVec.ofNat 64 (v.toNat * 2 ^ 32 + w.toNat % 2 ^ 32)
  match n with
  | 0x300 => { x with mie := v.getLsbD 3, mpie := v.getLsbD 7 }
  | 0x304 => { x with mieReg := v &&& 0x888 }
  | 0x305 => { x with mtvec := v &&& 0xFFFFFFFD }
  | 0x340 => { x with mscratch := v }
  | 0x341 => { x with mepc := v &&& 0xFFFFFFFE }
  | 0x342 => { x with mcause := v }
  | 0x343 => { x with mtval := v }
  | 0xB00 => { x with mcycle := lo x.mcycle }
  | 0xB80 => { x with mcycle := hi x.mcycle }
  | 0xB02 => { x with minstret := lo x.minstret }
  | 0xB82 => { x with minstret := hi x.minstret }
  | 0x7C0 => { x with ddata := v }
  | _ => x

/-- A trap is taken: mepc, mcause, mtval and mstatus are written, and pc goes to the handler (R324). -/
def Pair.trap (x : Pair) (interrupt : Bool) (cause : Nat) (tval epc : Word) : Pair :=
  let base := x.mtvec &&& 0xFFFFFFFC
  { x with
    mepc := epc &&& 0xFFFFFFFE, mcause := BitVec.ofNat 32 (cause + if interrupt then 2 ^ 31 else 0), mtval := tval
    mpie := x.mie, mie := false, wfi := false
    pc := if interrupt && x.mtvec.getLsbD 0 then base + BitVec.ofNat 32 (4 * cause) else base }

/-! ## The address map (R325 to R327) -/

/-- TCM size of a pair. -/
def tcmSize (p : Nat) : Nat := if p = 0 then 0x40000 else 0x80000

/-- Where a core address leads (Table 13.1). -/
inductive CorePlace where
  | rom (o : Nat)
  | tcm (o : Nat)
  | coreLocal (o : Nat)
  /-- A network request: local address and device, the own one where none. -/
  | net (addr : Nat) (dev : Option Byte)
  | fault
deriving DecidableEq, Repr

def State.corePlace (s : State) (p a : Nat) : CorePlace :=
  let x := s.pairAt p
  if a < 0x20000 then (if p = 0 then .rom a else .fault)
  else if 0x10000000 ≤ a ∧ a < 0x10000000 + tcmSize p then .tcm (a - 0x10000000)
  else if 0x20000000 ≤ a ∧ a < 0x20001000 then .coreLocal (a - 0x20000000)
  else if 0x40000000 ≤ a ∧ a < 0x42000000 then .net (a - 0x40000000) none
  else if 0x80000000 ≤ a then
    let w := (a - 0x80000000) / 0x20000000
    let c := x.winCtrl.getD w 0
    .net ((x.winBase.getD w 0).toNat + a % 0x20000000) (if c.getLsbD 0 then some (BitVec.ofNat 8 (field c 8 8)) else none)
  else .fault

/-- A core-local register (Table 13.2). -/
def State.coreLocalRead (s : State) (p o : Nat) : Word :=
  let x := s.pairAt p
  if o = 0 then BitVec.ofNat 32 s.sysNs
  else if o = 4 then x.mtimeHi
  else if o = 8 then BitVec.ofNat 32 x.mtimecmp.toNat
  else if o = 0xC then BitVec.ofNat 32 (x.mtimecmp.toNat / 2 ^ 32)
  else if o = 0x10 then ofFields [(0, (s.irqPend p).toNat)]
  else if o = 0x14 then ofFields [(0, x.irqEn.toNat)]
  else if 0x20 ≤ o ∧ o < 0x60 then
    let w := (o - 0x20) / 0x10
    if o % 0x10 = 0 then BitVec.ofNat 32 (x.winBase.getD w 0).toNat
    else if o % 0x10 = 4 then BitVec.ofNat 32 ((x.winBase.getD w 0).toNat / 2 ^ 32)
    else if o % 0x10 = 8 then x.winCtrl.getD w 0
    else 0
  else if o = 0x60 then x.buserr
  else 0

/-- The doorbell of pair p rings at the other pair. -/
def State.ringDoorbell (s : State) (p : Nat) : State := s.modPair (1 - p) fun x => { x with irqDoorbell := true, wfi := false }

/-- A word write to a core-local register. -/
def State.coreLocalWrite (s : State) (p o : Nat) (v : Word) : State :=
  if o = 0x18 then (if v.getLsbD 0 then s.ringDoorbell p else s)
  else s.modPair p fun x =>
    if o = 8 then { x with mtimecmp := BitVec.ofNat 64 (x.mtimecmp.toNat / 2 ^ 32 * 2 ^ 32 + v.toNat), mtip := false }
    else if o = 0xC then { x with mtimecmp := BitVec.ofNat 64 (v.toNat * 2 ^ 32 + x.mtimecmp.toNat % 2 ^ 32), mtip := false }
    else if o = 0x14 then { x with irqEn := BitVec.ofNat 3 v.toNat }
    else if o = 0x1C then (if v.getLsbD 0 then { x with irqDoorbell := false } else x)
    else if 0x20 ≤ o ∧ o < 0x60 then
      let w := (o - 0x20) / 0x10
      if o % 0x10 = 0 then { x with winBase := x.winBase.mod 0 w fun b => setLo b (v &&& 0xFFFFF000) }
      else if o % 0x10 = 4 then { x with winBase := x.winBase.mod 0 w fun b => setHi b v }
      else if o % 0x10 = 8 then { x with winCtrl := x.winCtrl.set 0 w (v &&& 0xFF01) }
      else x
    else x

/-- Bytes of an access, from the low bits of funct3. -/
def accessBytes (f3 : Nat) : Nat := 2 ^ (f3 % 4)

/-- The value a load puts in its register: sign-extended, or zero-extended for LBU and LHU. -/
def loadValue (f3 v : Nat) : Word :=
  match f3 with
  | 0 => sx 8 v
  | 1 => sx 16 v
  | 4 => BitVec.ofNat 32 (v % 256)
  | 5 => BitVec.ofNat 32 (v % 65536)
  | _ => BitVec.ofNat 32 v

/-- n bytes that a pair reads from its ROM or TCM. -/
def State.coreBytes (s : State) (p : Nat) (c : CorePlace) (n : Nat) : Option (List Byte) :=
  match c with
  | .rom o => some ((List.range n).map fun i => Config.romByte (o + i))
  | .tcm o => some (s.ram.readN (tcmBase p + o) n)
  | _ => none

/-! ## Execution -/

/-- What an instruction does, apart from a network access. -/
inductive RvResult where
  /-- It completes; the pc it goes to, if it jumps. -/
  | done (s : State) (jump : Option Word)
  | exc (cause : Nat) (tval : Word)
  /-- A load (rd, funct3) or a store of a value goes to the network. -/
  | net (addr : Word) (store : Bool) (f3 rd : Nat) (val : Word)
  | mret
  | wfi

/-- A load or store of a pair (R325, R326). -/
def State.rvAccess (s : State) (p : Nat) (a : Word) (store : Bool) (f3 rd : Nat) (val : Word) : RvResult :=
  let n := accessBytes f3
  let w := a.toNat
  let c := s.corePlace p w
  if w % n ≠ 0 then .exc (if store then 6 else 4) a
  else match c with
    | .fault => .exc (if store then 7 else 5) a
    | .net .. => .net a store f3 rd val
    | .coreLocal o =>
      if store then .done (if n = 4 then s.coreLocalWrite p o val else s) none
      else
        let v := bits (s.coreLocalRead p (o / 4 * 4)).toNat (8 * (o % 4)) (8 * n)
        let s := if o = 0 then s.modPair p fun x => { x with mtimeHi := BitVec.ofNat 32 (s.sysNs / 2 ^ 32) } else s
        .done (s.modPair p fun x => x.setReg rd (loadValue f3 v)) none
    | c =>
      if store then
        match c with
        | .tcm o => .done (s.modRam fun r => r.writeN (tcmBase p + o) (leBytes val.toNat n)) none
        | _ => .exc 7 a
      else .done (s.modPair p fun x => x.setReg rd (loadValue f3 (leNat ((s.coreBytes p c n).getD [])))) none

/-- CSRRW, CSRRS, CSRRC and their immediate forms: an unimplemented CSR, and a write to a read-only one, is illegal. -/
def State.rvCsrOp (s : State) (p f3 n rd rs : Nat) : RvResult :=
  let x := s.pairAt p
  let src := if 4 ≤ f3 then BitVec.ofNat 32 rs else x.reg rs
  let writes := f3 % 4 = 1 || rs != 0
  match s.rvCsr p n with
  | none => .exc 2 0
  | some old =>
    if writes && decide (0xC00 ≤ n) then .exc 2 0
    else
      let new := match f3 % 4 with | 1 => src | 2 => old ||| src | _ => old &&& ~~~src
      .done (s.modPair p fun x => (if writes then x.writeCsr n new else x).setReg rd old) none

/-- One instruction of a pair at a pc. -/
def State.rvExec (s : State) (p : Nat) (i : Rv) (pc : Word) (len : Nat) : RvResult :=
  let x := s.pairAt p
  let set (rd : Nat) (v : Word) (j : Option Word) : RvResult := .done (s.modPair p fun x => x.setReg rd v) j
  let link := pc + BitVec.ofNat 32 len
  match i with
  | .lui rd imm => set rd imm none
  | .auipc rd imm => set rd (pc + imm) none
  | .jal rd off => set rd link (some (pc + off))
  | .jalr rd rs off => set rd link (some ((x.reg rs + off) &&& 0xFFFFFFFE))
  | .branch f3 a b off => .done s (if rvTaken f3 (x.reg a) (x.reg b) then some (pc + off) else none)
  | .load f3 rd rs off => s.rvAccess p (x.reg rs + off) false f3 rd 0
  | .store f3 a b off => s.rvAccess p (x.reg a + off) true f3 0 (x.reg b)
  | .opImm f3 alt rd rs imm => set rd (rvAlu f3 alt (x.reg rs) imm) none
  | .op f3 alt rd a b => set rd (rvAlu f3 alt (x.reg a) (x.reg b)) none
  | .mul f3 rd a b => set rd (rvMul f3 (x.reg a) (x.reg b)) none
  | .fence => .done s none
  | .csr f3 n rd rs => s.rvCsrOp p f3 n rd rs
  | .ecall => .exc 11 0
  | .ebreak => .exc 3 pc
  | .mret => .mret
  | .wfi => .wfi

end Sys2Proof.Machine
end

