-- ==== Sys2Proof/Machine/Brock.lean ====
section
/-! DEFINITION. The Brock pairs: lockstep, restarts, halt mode, feeds, cross-triggers and the debug wire, with the BRK and DBG
registers and the commands of this family (chapter 13). -/

namespace Sys2Proof.Machine

/-! ## A pair's unknown program -/

/-- Word n of the free values of the run. -/
def freeWord (n : Nat) : Word := (Config.freeValue n).extractLsb' 0 32

/-- What a running pair's own registers hold: the program it has run is outside the manual, so each is a free value
(notes/assumptions/61.md). -/
def Pair.unknown (x : Pair) (n : Nat) : Pair :=
  { x with
    pc := freeWord n &&& 0xFFFFFFFE, regs := Tab.fill {} 0 1 31 fun i => freeWord (n + 1 + i), mie := (freeWord (n + 33)).getLsbD 0
    mpie := (freeWord (n + 33)).getLsbD 1, mieReg := freeWord (n + 34) &&& 0x888, mtvec := freeWord (n + 35) &&& 0xFFFFFFFD
    mepc := freeWord (n + 36) &&& 0xFFFFFFFE, mcause := freeWord (n + 37), mtval := freeWord (n + 38)
    mscratch := freeWord (n + 39), minstret := Config.freeValue (n + 40), ddata := freeWord (n + 41) }

/-- The registers of a pair that has been running become known as free values. -/
def State.settlePair (s : State) (p : Nat) : State := (s.modPair p fun x => x.unknown s.fresh).setFresh (s.fresh + 42)

/-- The pair executes instructions. -/
def Pair.runs (x : Pair) : Bool := !x.inReset && !x.stalled && !x.halted && !x.restarting

/-! ## Halting and cross-triggers (R338, R342) -/

/-- The code of a halt that a STEP brings, which is no cause of R338. -/
def stepCause : BitVec 3 := 5

/-- The pair halts now, with a cause of R338; its registers hold what `pc` and its program have left. -/
def State.haltNow (s : State) (p : Nat) (cause : BitVec 3) : State :=
  (s.modPair p fun x => { x with halted := true, haltWait := none, cause := cause, wfi := false }).raise .brkHalt
    (ofFields [(0, p), (1, cause.toNat)])

/-- A halt request: at once, or after the network access in progress, or when a restart completes (R333, R338). A pair that is
halted, or held in reset, does not change (notes/assumptions/62.md). -/
def State.haltOne (s : State) (p : Nat) (cause : BitVec 3) : State :=
  let x := s.pairAt p
  if x.inReset || x.halted then s
  else if x.restarting || x.wait.isSome then s.modPair p fun x => { x with haltWait := some (x.haltWait.getD cause) }
  else (s.settlePair p).haltNow p cause

/-- Halt the local pairs whose IN mask meets a mask. -/
def State.haltGroups (s : State) (mask : Byte) (cause : BitVec 3) : State :=
  forN 2 (fun p s => if (s.pairAt p).inMask &&& mask = 0 then s else s.haltOne p cause) s

/-- Groups are fired (R342): local pairs halt, and with GLOBAL one HALT message is sent; HOLD makes this origin request an
indefinite hold (R272, R343). -/
def State.fire (s : State) (mask : Byte) : State :=
  if mask = 0 then s
  else
    let s := s.haltGroups mask 3
    if s.brk.xGlobal then
      let id := s.brk.haltId + 1
      let s := (s.modBrk fun b => { b with haltId := id }).modSpn fun x => { x with seenHalts := remember 128 x.seenHalts (s.tbs.devNum, id) }
      let s := s.flood (.halt s.tbs.devNum id mask s.brk.xHold) 2 none
      if s.brk.xHold then s.requestHold s.tbs.devNum 0 true else s
    else s

/-- A halt that is no cross-trigger fires the pair's OUT groups once it has taken effect. -/
def State.fireOut (s : State) (p : Nat) (cause : BitVec 3) : State := if cause = 3 ∨ cause = 4 then s else s.fire (s.pairAt p).outMask

/-- A halt request of any cause. -/
def State.haltReq (s : State) (p : Nat) (cause : BitVec 3) : State :=
  let s' := s.haltOne p cause
  if (s'.pairAt p).halted && !(s.pairAt p).halted then s'.fireOut p cause else s'

/-- A halt that waited takes effect, or a STEP completes, which raises no event (R338). -/
def State.haltAfterWait (s : State) (p : Nat) : State :=
  match (s.pairAt p).haltWait with
  | none => s
  | some c =>
    if c = stepCause then (s.modPair p fun x => { x with halted := true, haltWait := none }).fireOut p c
    else ((s.settlePair p).haltNow p c).fireOut p c

/-- RESUME (R341). -/
def State.resumePair (s : State) (p : Nat) : State := s.modPair p fun x => if x.halted then { x with halted := false } else x

/-! ## Network accesses of a pair (R326, R340) -/

/-- `DBG_RESULT_p` of a feed that has completed. -/
def feedResult (exc : Bool) (cause : Nat) : BitVec 7 := BitVec.ofNat 7 (cause + exc.toNat * 16 + 64)

/-- A prepared reply: ST, payload and even parity, MSB first (R336). -/
def dwReply (st : Nat) (payload : List Bool) : List Bool :=
  let l := [st.testBit 1, st.testBit 0] ++ payload
  l ++ [l.foldl xor false]

/-- The n low bits of x, MSB first. -/
def msbBits (x n : Nat) : List Bool := (List.range n).map fun i => x.testBit (n - 1 - i)

/-- A feed completes: its result is readable, and a reply that still waits carries it (R340). -/
def State.feedDone (s : State) (p : Nat) (r : BitVec 7) : State :=
  let s := s.modPair p fun x => { x with result := r, feedBusy := false }
  if s.brk.replyFeed.map (·.val) = some p ∧ !s.brk.replying then
    s.modBrk fun b => { b with reply := some (dwReply 0 (msbBits (bits r.toNat 0 6) 6)), replyFeed := none }
  else s

/-- The response to the access a pair waits for (R326): a register is loaded, or an error goes to BUSERR and is an access
fault; then a halt that waited takes effect. -/
def State.coreDone (s : State) (p : Nat) (err : Err) (v : Nat) : State :=
  match (s.pairAt p).wait with
  | none => s
  | some w =>
    let s := s.modPair p fun x => { x with wait := none }
    let cause := if w.store then 7 else 5
    let s := if err = Err.ok then s
      else s.modPair p fun x => { x with buserr := BitVec.ofNat 32 (w.addr.toNat / 16 * 16 + err.code) }
    let s := if err = Err.ok ∧ !w.store then s.modPair p fun x => x.setReg w.rd.toNat (loadValue w.size.toNat v) else s
    if w.fed then s.feedDone p (if err = Err.ok then feedResult false 0 else feedResult true cause)
    else
      let s := match w.next with
        | some n =>
          if err = Err.ok then s.modPair p fun x => { x with pc := n, minstret := x.minstret + 1 }
          else s.modPair p fun x => x.trap false cause w.addr x.pc
        | none => if err = Err.ok then s else (s.modPair p fun x => x.trap false cause w.addr (freeWord s.fresh)).useFree
      s.haltAfterWait p

/-- The lowest tag of a master that is not outstanding (R200, R333). -/
def State.freeTag (s : State) (m : MasterId) : Option (BitVec 6) :=
  ((List.range 64).find? fun t => !s.tagBusy m (BitVec.ofNat 6 t)).map (BitVec.ofNat 6 ·)

/-- A pair's access goes to the network as a blocking request (R326); an answer of its injection port comes at once. -/
def State.coreSend (s : State) (p : Nat) (a : Word) (store : Bool) (f3 rd : Nat) (val : Word) (fed : Bool) (next : Option Word) : State :=
  match s.corePlace p a.toNat, s.freeTag (BitVec.ofNat 6 p) with
  | .net l dev, some tag =>
    let n := accessBytes f3
    let h : Hdr :=
      { opc := if store then opWrite else opRead, epoch := false, guar := false, src := BitVec.ofNat 6 p, tag := tag
        dstDev := dev.getD s.tbs.devNum, srcDev := s.tbs.devNum, addr := BitVec.ofNat 48 l, len := BitVec.ofNat 12 (n - 1), err := 0, flow := 0 }
    let s := s.modPair p fun x =>
      { x with wait := some { tag := tag, addr := a, store := store, rd := BitVec.ofNat 5 rd, size := BitVec.ofNat 3 f3, fed := fed, next := next } }
    if 2 ^ 48 ≤ l then s.coreDone p .decode 0
    else
      let s := s.inject { hdr := h, data := if store then leBytes val.toNat n else [] }
      if s.tagBusy h.src tag then s else s.coreDone p s.bus.err 0
  | _, _ => s

/-! ## FEED and STEP (R339 to R341) -/

/-- A fed instruction of a halted pair. -/
def State.feedPair (s : State) (p : Nat) (instr : Word) : State :=
  let pc := (s.pairAt p).pc
  match rvDecode instr.toNat with
  | none => s.feedDone p (feedResult true 2)
  | some i =>
    match s.rvExec p i pc (rvLength instr.toNat) with
    | .done s j => (s.modPair p fun x => { x with pc := j.getD x.pc }).feedDone p (feedResult false 0)
    | .exc c _ => s.feedDone p (feedResult true c)
    | .net a store f3 rd val => (s.modPair p fun x => { x with feedBusy := true, result := 0 }).coreSend p a store f3 rd val true none
    | .mret => s.feedDone p (feedResult true 2)
    | .wfi => s.feedDone p (feedResult true 2)

/-- The interrupt a pair would take: external before timer. -/
def State.rvInterrupt (s : State) (p : Nat) : Option Nat :=
  let x := s.pairAt p
  if !x.mie then none
  else if s.meip p && x.mieReg.getLsbD 11 then some 11
  else if s.mtip p && x.mieReg.getLsbD 7 then some 7
  else none

/-- The instruction at a pc: from the ROM or the TCM; elsewhere the fetch is an access fault (notes/assumptions/63.md). -/
def State.rvFetch (s : State) (p : Nat) (pc : Word) : Option Nat :=
  match s.coreBytes p (s.corePlace p pc.toNat) 2 with
  | none => none
  | some lo =>
    if leNat lo % 4 ≠ 3 then some (leNat lo)
    else (s.coreBytes p (s.corePlace p (pc.toNat + 2)) 2).map fun hi => leNat lo + 65536 * leNat hi

/-- A step completes at a pc. -/
def State.stepDone (s : State) (p : Nat) (f : Pair → Pair) : State :=
  ((s.modPair p fun x => { f x with halted := true, haltWait := none }).fireOut p stepCause)

/-- STEP: one instruction from the resume PC, with the exception or interrupt it takes (R341); an interrupt that is taken counts
as the step. mcycle counts the cycles it needs, which the manual does not give: a free value (notes/assumptions/64.md). -/
def State.stepPair (s : State) (p : Nat) : State :=
  let s := (s.modPair p fun x => { x with mcycle := s.free }).useFree
  let x := s.pairAt p
  match s.rvInterrupt p with
  | some c => s.stepDone p fun x => x.trap true c 0 x.pc
  | none =>
    match s.rvFetch p x.pc with
    | none => s.stepDone p fun x => x.trap false 1 x.pc x.pc
    | some w =>
      match rvDecode w with
      | none => s.stepDone p fun x => x.trap false 2 (BitVec.ofNat 32 w) x.pc
      | some i =>
        let next := x.pc + BitVec.ofNat 32 (rvLength w)
        let retire (j : Option Word) (x : Pair) : Pair := { x with pc := j.getD next, minstret := x.minstret + 1 }
        if i = .ebreak ∧ x.ebreakHalt then (s.haltNow p 1).fireOut p 1
        else match s.rvExec p i x.pc (rvLength w) with
          | .done s j => s.stepDone p (retire j)
          | .exc c tval => s.stepDone p fun x => x.trap false c (if c = 2 then BitVec.ofNat 32 w else tval) x.pc
          | .net a store f3 rd val =>
            (s.modPair p fun x => { x with halted := false, haltWait := some stepCause }).coreSend p a store f3 rd val false (some next)
          | .mret => s.stepDone p fun x => { x with pc := x.mepc, mie := x.mpie, mpie := true, minstret := x.minstret + 1 }
          | .wfi => s.stepDone p (retire none)

/-! ## Restarts (R332, R333) -/

/-- A pair restarts: its cores are reset, and the third restart within 1 s is reported, once per 1 s. A feed under way ends
with RESTARTED. -/
def State.restartPair (s : State) (p : Nat) : State :=
  let old := s.pairAt p
  let recent := (old.restarts.filter fun t => decide (s.now < t + 1000000000)) ++ [s.now]
  let storm := decide (3 ≤ recent.length) && (match old.stormAt with | none => true | some t => decide (t + 1000000000 ≤ s.now))
  let s := s.modPair p fun x =>
    { x.resetCore (resetVec p) with
      restarting := true, halted := false, haltAfter := x.halted || x.haltAfter
      haltWait := if x.haltWait = some stepCause then none else x.haltWait, restarts := recent
      stormAt := if storm then some s.now else x.stormAt, result := if x.feedBusy then 0x60 else x.result }
  s.raiseIf storm .brkMismatchStorm (BitVec.ofNat 32 p)

/-- The TCM of Brock-A is cleared with valid parity. -/
def State.clearTcmA (s : State) : State :=
  s.modRam fun r => r.filter fun c => !(decide (tcmBase 0 ≤ c.1) && decide (c.1 < tcmBase 0 + tcmSize 0))

/-- A restart completes (R333): Brock-A's TCM is cleared, and the pair runs from its reset vector, or comes out halted. -/
def State.restartDone (s : State) (p : Nat) : State :=
  let s := if p = 0 then s.clearTcmA else s
  let x := s.pairAt p
  let s := s.modPair p fun x => { x with restarting := false, halted := x.haltAfter, haltAfter := false, haltWait := none }
  match x.haltWait with
  | some c => if x.haltAfter then s else (s.haltNow p c).fireOut p c
  | none => s

/-- A fault of a pair that is out of reset and not restarting already. -/
def State.pairFault (s : State) (p : Nat) (k : State → State) : State :=
  let x := s.pairAt p
  if !s.on || x.inReset || x.restarting then s else k s

/-! ## Registers (Tables 13.6, 13.7) -/

/-- B_RUN written (R329): 0 holds Brock-B in reset; 1 releases it from release stage 3 on. -/
def State.bRunWrite (s : State) (on : Bool) : State :=
  let was := s.brk.bRun
  let s := s.modBrk fun b => { b with bRun := on }
  if !on then s.holdB
  else if !was && (s.mode == .run || s.mode == .sleep || s.mode == .deep) then
    s.modPair 1 fun x => { x with inReset := false, stalled := s.mode == .deep }
  else s

/-- A register of a pair's own: while its program runs, what it holds is a free value (notes/assumptions/61.md). -/
def State.ownWord (s : State) (p : Nat) (v : Word) : Word := if (s.pairAt p).runs then freeWord s.fresh else v

/-- A BRK or DBG register at an offset of the block. -/
def State.brkRead (s : State) (o : Nat) : Option Word :=
  let b := s.brk
  if o = 0 then
    some (ofFields [(0, b.a.halted.toNat), (1, b.b.halted.toNat), (2, b.a.unchecked.toNat), (3, b.b.unchecked.toNat),
      (4, b.a.restarting.toNat), (5, b.b.restarting.toNat), (6, b.b.inReset.toNat), (7, b.b.stalled.toNat)])
  else if o = 4 then some (ofFields [(0, b.bRun.toNat)])
  else if o = 8 then some (ofFields [(0, b.mismatchA.toNat), (16, b.mismatchB.toNat)])
  else if o = 0xC then some (ofFields [(0, b.delayA.toNat), (16, b.delayB.toNat)])
  else if o = 0x10 then some (ofFields [(0, b.tcmA.toNat), (16, b.tcmB.toNat)])
  else if o = 0x20 ∨ o = 0x24 then
    let x := s.pairAt ((o - 0x20) / 4)
    some (ofFields [(0, x.inMask.toNat), (8, x.outMask.toNat)])
  else if o = 0x28 then some (ofFields [(0, b.xGlobal.toNat), (1, b.xHold.toNat), (8, b.haltId.toNat)])
  else if o = 0x2C then some 0
  else if 0x1000 ≤ o ∧ o < 0x1080 then
    let x := s.pairAt ((o - 0x1000) / 0x40)
    match o % 0x40 with
    | 0 => some (ofFields [(3, x.ebreakHalt.toNat)])
    | 4 => some (ofFields [(0, x.halted.toNat), (1, x.cause.toNat), (4, x.feedBusy.toNat)])
    | 8 => some 0
    | 0xC => some (ofFields [(0, x.result.toNat)])
    | 0x10 => some (s.ownWord ((o - 0x1000) / 0x40) x.ddata)
    | 0x14 => some (s.ownWord ((o - 0x1000) / 0x40) x.pc)
    | _ => none
  else if o = 0x1100 then some b.glitch
  else if o = 0x1104 then some b.frameErr
  else if o = 0x1108 then some b.frameCount
  else none

/-- What a read of an RC register clears. -/
def State.brkClear (s : State) (o : Nat) : State :=
  s.modBrk fun b =>
    if o = 8 then { b with mismatchA := 0, mismatchB := 0 }
    else if o = 0xC then { b with delayA := 0, delayB := 0 }
    else if o = 0x10 then { b with tcmA := 0, tcmB := 0 }
    else if o = 0x1100 then { b with glitch := 0 }
    else if o = 0x1104 then { b with frameErr := 0 }
    else if o = 0x1108 then { b with frameCount := 0 }
    else b

/-- A write to `DBG_CTRL_p` (R338, R341): HALT, RESUME and STEP act in this order. -/
def State.dbgCtrl (s : State) (p : Nat) (v : Word) : State :=
  let s := s.modPair p fun x => { x with ebreakHalt := v.getLsbD 3 }
  let s := if v.getLsbD 0 then s.haltReq p 2 else s
  let s := if v.getLsbD 1 then s.resumePair p else s
  if v.getLsbD 2 && (s.pairAt p).halted then s.stepPair p else s

/-- A write to `DBG_FEED_p`: BUSY while a feed is executing; nothing happens on a pair that is not halted. -/
def State.dbgFeed (s : State) (p : Nat) (v : Word) : State × Err :=
  if (s.pairAt p).feedBusy then (s, .busy) else (if (s.pairAt p).halted then s.feedPair p v else s, .ok)

/-- A write to a BRK or DBG register. -/
def State.brkWrite (s : State) (o : Nat) (v : Word) : Option (State × Err) :=
  if (s.brkRead o).isNone then none
  else if o = 4 then some (s.bRunWrite (v.getLsbD 0), .ok)
  else if o = 0x20 ∨ o = 0x24 then
    some (s.modPair ((o - 0x20) / 4) fun x => { x with inMask := BitVec.ofNat 8 v.toNat, outMask := BitVec.ofNat 8 (field v 8 8) }, .ok)
  else if o = 0x28 then some (s.modBrk fun b => { b with xGlobal := v.getLsbD 0, xHold := v.getLsbD 1 }, .ok)
  else if o = 0x2C then some (s.fire (BitVec.ofNat 8 v.toNat), .ok)
  else if 0x1000 ≤ o ∧ o < 0x1080 then
    let p := (o - 0x1000) / 0x40
    match o % 0x40 with
    | 0 => some (s.dbgCtrl p v, .ok)
    | 8 => some (s.dbgFeed p v)
    | 0x10 => some (s.modPair p fun x => { x with ddata := v }, .ok)
    | 0x14 => some (s.modPair p fun x => if x.halted then { x with pc := v &&& 0xFFFFFFFE } else x, .ok)
    | _ => some (s, .ok)
  else some (s, .ok)

/-! ## The debug wire (R334 to R337) -/

/-- Payload bits of a command; 0 for an unassigned one (Table 13.5). -/
def dwPayload (cmd : Nat) : Nat :=
  match cmd with
  | 0x10 => 2 | 0x11 => 2 | 0x12 => 1 | 0x20 => 33 | 0x21 => 1 | 0x22 => 1 | 0x23 => 33 | 0x24 => 1 | 0x25 => 33
  | 0x30 => 17 | 0x31 => 2 | 0x32 => 8 | _ => 0

/-- The assigned commands. -/
def dwAssigned (cmd : Nat) : Bool :=
  [1, 2, 0x10, 0x11, 0x12, 0x20, 0x21, 0x22, 0x23, 0x24, 0x25, 0x30, 0x31, 0x32, 0x3F].contains cmd

/-- A number from bits, MSB first. -/
def msbNat (l : List Bool) : Nat := l.foldl (fun a b => 2 * a + b.toNat) 0

/-- A reply is prepared. -/
def State.prepare (s : State) (st : Nat) (payload : List Bool) : State :=
  s.modBrk fun b => { b with reply := some (dwReply st payload), replyFeed := none }

/-- A frame is complete: a parity error and an unassigned CMD are answered at once; any other waits for its command. -/
def State.dwFrame (s : State) (l : List Bool) : State :=
  let s := s.modBrk fun b => { b with bits := none }
  if l.foldl xor false then s.prepare 3 []
  else
    let cmd := msbNat (l.take 8)
    let fresh := match s.brk.lastFrame with | none => true | some t => decide (t + 1000000000 ≤ s.now)
    let s := s.modBrk fun b => { b with frameCount := satInc b.frameCount, lastFrame := some s.now }
    let s := s.raiseIf fresh .dbgSession (BitVec.ofNat 32 cmd)
    if dwAssigned cmd then
      s.modBrk fun b => { b with frame := some { cmd := BitVec.ofNat 8 cmd, payload := (l.drop 8).take (dwPayload cmd) } }
    else s.prepare 2 []

/-- A framing error, which abandons the frame in progress. -/
def State.dwError (s : State) : State := s.modBrk fun b => { b with bits := none, frameErr := satInc b.frameErr }

/-- The next falling edge is in its cell: 4.5 to 5.5 µs after that of a bit, and 20 µs after that of the break, with the same
tolerance (R335; DEDUCED, notes/assumptions/65.md). -/
def dwCellOk (first : Bool) (gap : Nat) : Bool :=
  if first then decide (18000 ≤ gap) && decide (gap ≤ 22000) else decide (4500 ≤ gap) && decide (gap ≤ 5500)

/-- The frame in progress is abandoned 10 µs after the falling edge of its last bit, or after the end of the break's cell (R335,
notes/assumptions/65.md). -/
def Brk.dwDeadline (b : Brk) (l : List Bool) : Nat := b.cellAt + if l.isEmpty then 30000 else 10000

/-- A bit whose cell began at a local time; the last one of a frame ends with its cell of 5 µs. -/
def State.dwBit (s : State) (v : Bool) (fall : Nat) : State :=
  match s.brk.bits with
  | none => s
  | some l =>
    if !dwCellOk l.isEmpty (fall - s.brk.cellAt) then s.dwError
    else
      let l := l ++ [v]
      let s := s.modBrk fun b => { b with bits := some l, cellAt := fall }
      if 8 ≤ l.length ∧ l.length = 9 + dwPayload (msbNat (l.take 8)) then (s.advanceTo (fall + 5000)).dwFrame l else s

/-- What the wire does `gap` ns from now stops a reply in progress, whose cells are 5 µs each (R336), and shows that a frame has
been abandoned (R335). -/
def State.dwFall (s : State) (fall : Nat) : State :=
  let s := if s.brk.replying then
      s.modBrk fun b => { b with replying := false, reply := none, sent := (b.reply.getD []).take ((fall - b.replyAt) / 5000) }
    else s
  match s.brk.bits with
  | none => s
  | some l => if s.brk.dwDeadline l < fall then s.dwError else s

/-- A low of RST_DW_N, which begins `gap` ns from now, is sorted by its length (Tables 3.8, 13.4). -/
def State.dwLow (s : State) (gap ns : Nat) : State :=
  if !s.on then s
  else
    let fall := s.now + gap
    let s := (s.advanceTo (fall + ns)).dwFall fall
    if ns < 200 then s
    else if 600 ≤ ns ∧ ns ≤ 1600 then s.dwBit false fall
    else if 2400 ≤ ns ∧ ns ≤ 3600 then s.dwBit true fall
    else if 12000 ≤ ns ∧ ns ≤ 18000 then
      s.modBrk fun b => { b with bits := some [], frame := none, reply := none, replyFeed := none, cellAt := fall }
    else if ns < 20000 then s.dwError
    else s.modBrk fun b => { b with bits := none, glitch := if ns ≤ 100000 then satInc b.glitch else b.glitch }

/-- A command runs when the frame the wire has delivered is its own. -/
def State.dwCommand (s : State) (cmd : Nat) (payload : List Bool) (k : State → State) : State :=
  if s.brk.frame = some { cmd := BitVec.ofNat 8 cmd, payload := payload } then k (s.modBrk fun b => { b with frame := none }) else s

/-- A command on a pair that must be halted: REFUSED if it is not. -/
def State.onHalted (s : State) (p : Nat) (k : State → State) : State := if (s.pairAt p).halted then k s else s.prepare 2 []

/-! ## Commands -/

/-- CORE_NETWORK_ACCESS (R325, R326): a load or store of a running pair. -/
def execCoreNetworkAccess (p : Fin 2) (addr : Word) (store : Bool) (bytes : BitVec 3) (rd : BitVec 5) (val : Word) (s : State) :
    Host.Outcome State Fault Refusal :=
  let f3 := if bytes = 1 then 0 else if bytes = 2 then 1 else 2
  .next (if s.on && (s.pairAt p).runs && (s.pairAt p).wait.isNone then
      match s.rvAccess p addr store f3 rd.toNat val with
      | .done s _ => s
      | .exc c tval => (s.modPair p fun x => x.trap false c tval (freeWord s.fresh)).useFree
      | .net a st f rd v => s.coreSend p a st f rd v false none
      | .mret => s
      | .wfi => s
    else s)

/-- MTIMER_INTERRUPT (R327): system time reaches MTIMECMP. -/
def execMtimerInterrupt (p : Fin 2) (s : State) : Host.Outcome State Fault Refusal :=
  .next (if s.on && s.time.sysOn && !(s.pairAt p).inReset then
      (s.advance ((s.pairAt p).mtimecmp.toNat - s.sysNs)).modPair p fun x => { x with mtip := true, wfi := false }
    else s)

/-- CORE_DOORBELL (Table 13.2). -/
def execCoreDoorbell (p : Fin 2) (val : Word) (s : State) : Host.Outcome State Fault Refusal :=
  .next (if s.on && (s.pairAt p).runs && val.getLsbD 0 then s.ringDoorbell p else s)

/-- CORE_MISMATCH (R332). -/
def execCoreMismatch (p : Fin 2) (s : State) : Host.Outcome State Fault Refusal :=
  .next (s.pairFault p fun s =>
    let s := s.modBrk fun b => if p = 0 then { b with mismatchA := satInc b.mismatchA } else { b with mismatchB := satInc b.mismatchB }
    (s.raise .brkMismatch (BitVec.ofNat 32 p.val)).restartPair p)

/-- DELAY_PARITY_ERROR (R330, R332). -/
def execDelayParityError (p : Fin 2) (s : State) : Host.Outcome State Fault Refusal :=
  .next (s.pairFault p fun s =>
    let s := s.modBrk fun b => if p = 0 then { b with delayA := satInc b.delayA } else { b with delayB := satInc b.delayB }
    (s.raise .brkDelayParity (BitVec.ofNat 32 p.val)).restartPair p)

/-- When a pair's next self-test is due: whole milliseconds after its last (notes/assumptions/126.md). -/
def State.selfTestAt (s : State) (p : Nat) : Nat :=
  let t := (s.pairAt p).testAt
  t + 1000000 * max 1 ((s.now - t + 999999) / 1000000)

/-- COMPARATOR_SELF_TEST (R331, R332): every 1 ms. -/
def execComparatorSelfTest (p : Fin 2) (detected : Bool) (s : State) : Host.Outcome State Fault Refusal :=
  .next (s.pairFault p fun s =>
    let s := s.advanceTo (s.selfTestAt p)
    let was := (s.pairAt p).unchecked
    let s := s.modPair p fun x => { x with testAt := s.now, testBit := x.testBit + 1, unchecked := x.unchecked || !detected }
    s.raiseIf (!detected && !was) .brkUnchecked (BitVec.ofNat 32 p.val))

/-- TCM_PARITY_ERROR (R221, R332): Brock-A restarts, Brock-B is held in reset. -/
def execTcmParityError (p : Fin 2) (off : BitVec 20) (s : State) : Host.Outcome State Fault Refusal :=
  .next (s.pairFault p fun s =>
    let s := s.modBrk fun b => if p = 0 then { b with tcmA := satInc b.tcmA } else { b with tcmB := satInc b.tcmB }
    let s := s.raise .brkTcmParity (ofFields [(0, p.val), (1, off.toNat)])
    if p = 0 then s.restartPair 0 else s.bRunWrite false)

/-- PAIR_RESTART_DONE (R333). -/
def execPairRestartDone (p : Fin 2) (s : State) : Host.Outcome State Fault Refusal :=
  .next (if s.on && (s.pairAt p).restarting then s.restartDone p else s)

/-- BRK_CTRL_WRITE (R329). -/
def execBrkCtrlWrite (m : MasterId) (val : Word) (s : State) : Host.Outcome State Fault Refusal :=
  .next (s.regWrite m 0xD00004 fun s => s.bRunWrite (val.getLsbD 0))

/-- EBREAK (R338): a running pair reaches one; with EBREAK_HALT it halts there, else it takes the breakpoint exception. -/
def execEbreak (p : Fin 2) (pc : Word) (s : State) : Host.Outcome State Fault Refusal :=
  .next (if s.on && (s.pairAt p).runs && (s.pairAt p).wait.isNone then
      let s := (s.settlePair p).modPair p fun x => { x with pc := pc &&& 0xFFFFFFFE }
      if (s.pairAt p).ebreakHalt then (s.haltNow p 1).fireOut p 1 else s.modPair p fun x => x.trap false 3 x.pc x.pc
    else s)

/-- DW_LOW_END (R334, R335). -/
def execDwLowEnd (gap ns : Nat) (s : State) : Host.Outcome State Fault Refusal := .next (s.dwLow gap ns)

/-- DW_FRAME_TIMEOUT (R335): 10 µs without a falling edge. -/
def execDwFrameTimeout (s : State) : Host.Outcome State Fault Refusal :=
  .next (match s.brk.bits with
    | none => s
    | some l => (s.advanceTo (s.brk.dwDeadline l)).dwError)

/-- DW_REPLY_START (R336): 10 µs ± 1 µs after the end of the last cell, where in between being a free value. A FEED whose access
still runs is answered BUSY (R340). -/
def execDwReplyStart (s : State) : Host.Outcome State Fault Refusal :=
  .next (if s.brk.reply.isSome && !s.brk.replying then
      let s := (s.advanceTo (s.brk.cellAt + 14000 + s.free.toNat % 2001)).useFree
      s.modBrk fun b => { b with replying := true, replyAt := s.now, replyFeed := none }
    else s)

/-- DW_REPLY_INTERRUPTED (R336): the wire falls while a reply is in progress, which stops at once; the low is sorted. -/
def execDwReplyInterrupted (gap ns : Nat) (s : State) : Host.Outcome State Fault Refusal :=
  .next (if s.brk.replying && decide (s.now + gap < s.brk.replyAt + 5000 * (s.brk.reply.getD []).length) then s.dwLow gap ns else s)

/-- IDCODE (Table 13.5). -/
def execIdcode (s : State) : Host.Outcome State Fault Refusal :=
  .next (s.dwCommand 0x01 [] fun s => s.prepare 0 (msbBits (0x96 + s.fuse 72 4 * 2 ^ 16 + s.fuse 69 2 * 2 ^ 20 + s.fuse 71 1 * 2 ^ 22) 32))

/-- STATUS (Table 13.5). -/
def execStatus (s : State) : Host.Outcome State Fault Refusal :=
  .next (s.dwCommand 0x02 [] fun s =>
    let a := s.brk.a
    let b := s.brk.b
    s.prepare 0 (msbBits (s.mode.code + a.halted.toNat * 16 + b.halted.toNat * 32 + a.unchecked.toNat * 64 + b.unchecked.toNat * 128 +
      a.feedBusy.toNat * 256 + b.feedBusy.toNat * 512 + b.inReset.toNat * 1024) 16))

/-- HALT (R338): bit 0 of the mask is Brock-A. -/
def execHalt (mask : BitVec 2) (s : State) : Host.Outcome State Fault Refusal :=
  .next (s.dwCommand 0x10 (msbBits mask.toNat 2) fun s =>
    (forN 2 (fun p s => if mask.getLsbD p then s.haltReq p 0 else s) s).prepare 0 [])

/-- RESUME (R341). -/
def execResume (mask : BitVec 2) (s : State) : Host.Outcome State Fault Refusal :=
  .next (s.dwCommand 0x11 (msbBits mask.toNat 2) fun s =>
    (forN 2 (fun p s => if mask.getLsbD p then s.resumePair p else s) s).prepare 0 [])

/-- STEP (R341). -/
def execStep (p : Fin 2) (s : State) : Host.Outcome State Fault Refusal :=
  .next (s.dwCommand 0x12 (msbBits p.val 1) fun s => s.onHalted p fun s => (s.stepPair p).prepare 0 [])

/-- FEED (R339, R340): BUSY while an earlier feed executes; a network access is answered BUSY unless it ends before the reply. -/
def execFeed (p : Fin 2) (instr : Word) (s : State) : Host.Outcome State Fault Refusal :=
  .next (s.dwCommand 0x20 (msbBits p.val 1 ++ msbBits instr.toNat 32) fun s =>
    if (s.pairAt p).feedBusy then s.prepare 1 []
    else s.onHalted p fun s =>
      let s := s.feedPair p instr
      if (s.pairAt p).feedBusy then (s.prepare 1 []).modBrk fun b => { b with replyFeed := some p }
      else s.prepare 0 (msbBits (bits (s.pairAt p).result.toNat 0 6) 6))

/-- RESULT (R340). -/
def execResult (p : Fin 2) (s : State) : Host.Outcome State Fault Refusal :=
  .next (s.dwCommand 0x21 (msbBits p.val 1) fun s =>
    if (s.pairAt p).feedBusy then s.prepare 1 [] else s.prepare 0 (msbBits (bits (s.pairAt p).result.toNat 0 6) 6))

/-- RDDATA (Table 13.5). -/
def execRddata (p : Fin 2) (s : State) : Host.Outcome State Fault Refusal :=
  .next (s.dwCommand 0x22 (msbBits p.val 1) fun s => s.prepare 0 (msbBits (s.ownWord p (s.pairAt p).ddata).toNat 32))

/-- WRDATA (Table 13.5). -/
def execWrdata (p : Fin 2) (val : Word) (s : State) : Host.Outcome State Fault Refusal :=
  .next (s.dwCommand 0x23 (msbBits p.val 1 ++ msbBits val.toNat 32) fun s => (s.modPair p fun x => { x with ddata := val }).prepare 0 [])

/-- RDPC (Table 13.5). -/
def execRdpc (p : Fin 2) (s : State) : Host.Outcome State Fault Refusal :=
  .next (s.dwCommand 0x24 (msbBits p.val 1) fun s => s.onHalted p fun s => s.prepare 0 (msbBits (s.pairAt p).pc.toNat 32))

/-- WRPC (Table 13.5). -/
def execWrpc (p : Fin 2) (pc : Word) (s : State) : Host.Outcome State Fault Refusal :=
  .next (s.dwCommand 0x25 (msbBits p.val 1 ++ msbBits pc.toNat 32) fun s =>
    s.onHalted p fun s => (s.modPair p fun x => { x with pc := pc &&& 0xFFFFFFFE }).prepare 0 [])

/-- GROUP (R342). -/
def execGroup (p : Fin 2) (inMask outMask : Byte) (s : State) : Host.Outcome State Fault Refusal :=
  .next (s.dwCommand 0x30 (msbBits p.val 1 ++ msbBits inMask.toNat 8 ++ msbBits outMask.toNat 8) fun s =>
    (s.modPair p fun x => { x with inMask := inMask, outMask := outMask }).prepare 0 [])

/-- XCFG (R342). -/
def execXcfg (global hold : Bool) (s : State) : Host.Outcome State Fault Refusal :=
  .next (s.dwCommand 0x31 [global, hold] fun s => (s.modBrk fun b => { b with xGlobal := global, xHold := hold }).prepare 0 [])

/-- XHALT (R342). -/
def execXhalt (mask : Byte) (s : State) : Host.Outcome State Fault Refusal :=
  .next (s.dwCommand 0x32 (msbBits mask.toNat 8) fun s => (s.fire mask).prepare 0 [])

/-- GLITCH (Table 13.5). -/
def execGlitch (s : State) : Host.Outcome State Fault Refusal :=
  .next (s.dwCommand 0x3F [] fun s => s.prepare 0 (msbBits (bits s.brk.glitch.toNat 0 16) 16))

/-- The address of a DBG register of pair p. -/
def dbgAddr (p : Fin 2) (o : Nat) : Addr := BitVec.ofNat 48 (0xD01000 + 0x40 * p.val + o)

/-- DBG_CTRL_p.EBREAK_HALT as a write that leaves it would carry it. -/
def State.ebreakBit (s : State) (p : Nat) : Nat := 8 * (s.pairAt p).ebreakHalt.toNat

/-- DBG_CTRL_HALT (R338). -/
def execDbgCtrlHalt (m : MasterId) (p : Fin 2) (s : State) : Host.Outcome State Fault Refusal :=
  .next (s.regWrite m (dbgAddr p 0) fun s => s.dbgCtrl p (BitVec.ofNat 32 (1 + s.ebreakBit p)))

/-- DBG_CTRL_RESUME (R341). -/
def execDbgCtrlResume (m : MasterId) (p : Fin 2) (s : State) : Host.Outcome State Fault Refusal :=
  .next (s.regWrite m (dbgAddr p 0) fun s => s.dbgCtrl p (BitVec.ofNat 32 (2 + s.ebreakBit p)))

/-- DBG_CTRL_STEP (R341). -/
def execDbgCtrlStep (m : MasterId) (p : Fin 2) (s : State) : Host.Outcome State Fault Refusal :=
  .next (s.regWrite m (dbgAddr p 0) fun s => s.dbgCtrl p (BitVec.ofNat 32 (4 + s.ebreakBit p)))

/-- DBG_FEED_WRITE (R339). -/
def execDbgFeedWrite (m : MasterId) (p : Fin 2) (instr : Word) (s : State) : Host.Outcome State Fault Refusal :=
  .next (s.regTry m (dbgAddr p 8) fun s => s.dbgFeed p instr)

/-- FEED_COMPLETE (R340): the response that the network has delivered to a fed access is taken up. -/
def execFeedComplete (p : Fin 2) (s : State) : Host.Outcome State Fault Refusal :=
  .next (match (s.pairAt p).fedAnswer with
    | none => s
    | some (e, v) => (s.modPair p fun x => { x with fedAnswer := none }).coreDone p e v)

/-- BRK_XHALT (R342). -/
def execBrkXhalt (m : MasterId) (val : Word) (s : State) : Host.Outcome State Fault Refusal :=
  .next (s.regWrite m 0xD0002C fun s => s.fire (BitVec.ofNat 8 val.toNat))

/-- SPAN_HALT (R272, R342): each origin and HALT_ID once. -/
def execSpanHalt (k : Fin 8) (origin haltId mask : Byte) (hold : Bool) (s : State) : Host.Outcome State Fault Refusal :=
  .next (s.onCtl k (.halt origin haltId mask hold) fun s =>
    if s.spn.seenHalts.contains (origin, haltId) then s
    else
      let s := s.modSpn fun x => { x with seenHalts := remember 128 x.seenHalts (origin, haltId) }
      (s.flood (.halt origin haltId mask hold) 2 (some k)).haltGroups mask 4)

end Sys2Proof.Machine
end

