-- ==== Sys2Proof/Machine/Host.lean ====
section
/-! DEFINITION. The PCI Express endpoint, its mailbox and the resident monitor, with the endpoint-local block, the HST registers
and the commands of this family (chapter 12). -/

namespace Sys2Proof

/-- AER uncorrectable status bits (PRESUMED: PCI Express Base Specification 6.0, which R303 names; notes/assumptions/66.md). -/
def aerPoisoned : Nat := 12
def aerTimeout : Nat := 14
def aerAbort : Nat := 15
def aerUnexpected : Nat := 16
def aerUnsupported : Nat := 20

/-- The AER bit of a link-layer error, and whether it is uncorrectable (Table 12.6). -/
def HostErr.bit : HostErr → Nat × Bool
  | .malformed => (18, true) | .overflow => (17, true) | .flowControl => (13, true) | .dataLink => (4, true)
  | .receiver => (0, false) | .badTlp => (6, false) | .badDllp => (7, false) | .replayTimeout => (12, false)
  | .replayRollover => (8, false)

end Sys2Proof

namespace Sys2Proof.Machine

/-- TLPs join the transmit queue of the link. -/
def State.sendTlps (s : State) (l : List Tlp) : State := s.modHst fun h => { h with tlps := h.tlps ++ l }

/-- An AER uncorrectable status bit is set. -/
def State.aer (s : State) (b : Nat) : State := s.modHst fun h => { h with aerUnc := setBit h.aerUnc b true }

/-- Unsupported Request for a read (R318). -/
def State.sendUr (s : State) (t : BitVec 14) : State :=
  ((s.sendTlps [.cpl (.ur t)]).aer aerUnsupported).modHst fun h => { h with urCount := satInc h.urCount }

/-! ## Inbound requests (R304 to R308) -/

/-- Where an inbound request leads. -/
inductive HostPlace where
  | elb (o : Nat)
  /-- Device and local address. -/
  | net (dev : Byte) (addr : Nat)
  | none
deriving DecidableEq, Repr

/-- The BAR maps (Table 12.2, R305). -/
def State.hostPlace (s : State) (bar : Bar) (off len : Nat) : HostPlace :=
  match bar with
  | .bar0 =>
    if off < 0x2000000 then .net s.tbs.devNum off
    else if off < 0x4000000 then .elb (off - 0x2000000) else .none
  | .bar2 => if off < 0x4000000 then .net s.tbs.devNum (0x40000000 + off) else .none
  | .bar4 =>
    let n := off / 2 ^ 32
    let c := s.hst.winCtrl.getD n 0
    let a := (s.hst.winBase.getD n 0).toNat + off % 2 ^ 32
    if 16 ≤ n ∨ !c.getLsbD 0 ∨ 0x800000000000 < a + max 1 len then .none
    else .net (if c.getLsbD 1 then BitVec.ofNat 8 (field c 8 8) else s.tbs.devNum) a

/-- A request of master 3, without its tag. -/
def State.hostReq (s : State) (dev : Byte) (a n : Nat) (data : Option (List Byte)) : Packet :=
  { hdr := { opc := if data.isSome then opWrite else opRead, epoch := false, guar := false, src := 3, tag := 0, dstDev := dev
             srcDev := s.tbs.devNum, addr := BitVec.ofNat 48 a, len := BitVec.ofNat 12 (n - 1), err := 0, flow := 0 }
    data := data.getD [] }

/-- The target of an inbound request: 18 for another device. -/
def State.hostTarget (s : State) (h : Hdr) : Nat :=
  if h.dstDev ≠ s.tbs.devNum then 18
  else match s.place h.addr with | none => 31 | some p => (s.target h.addr p).getD 31

/-- A tag of master 3 that nothing waits for (R307). -/
def State.hostTag (s : State) : Option (BitVec 6) :=
  ((List.range 64).find? fun t =>
    !s.tagBusy 3 (BitVec.ofNat 6 t) && !s.hst.lateTags.getLsbD t && !s.hst.inReads.any (·.tag.toNat == t) &&
      !s.hst.inWrites.any (·.1.toNat == t)).map (BitVec.ofNat 6 ·)

/-- The completion of an inbound read (Table 12.3). -/
def State.completeRead (s : State) (r : HostRead) (err : Err) (data : List Byte) : State :=
  match err with
  | .ok => s.sendTlps [.cpl (.sc r.hostTag data)]
  | .poison => s.sendTlps [.cpl (.scPoisoned r.hostTag r.len)]
  | .decode => s.sendUr r.hostTag
  | .accessDenied => s.sendUr r.hostTag
  | e => ((s.sendTlps [.cpl (.ca r.hostTag)]).aer aerAbort).raise .hstInErr (BitVec.ofNat 32 e.code)

/-- A network answer to an inbound request; a late one is discarded. -/
def State.hostTake (s : State) (tag : BitVec 6) (err : Err) (data : List Byte) : State :=
  if s.hst.lateTags.getLsbD tag.toNat then s.modHst fun h => { h with lateTags := setBit h.lateTags tag.toNat false }
  else match s.hst.inReads.find? fun r => r.tag == tag with
    | some r => (s.modHst fun h => { h with inReads := removeFirst (fun r => r.tag == tag) h.inReads }).completeRead r err data
    | none =>
      if s.hst.inWrites.any fun w => w.1 == tag then
        (s.modHst fun h => { h with inWrites := removeFirst (fun w => w.1 == tag) h.inWrites }).raiseIf (err != .ok) .hstInErr
          (BitVec.ofNat 32 err.code)
      else s

/-- An inbound request is injected under a free tag; an answer of the injection port comes at once. -/
def State.hostSend (s : State) (p : Packet) (tag : BitVec 6) (rd : Option (BitVec 14 × Nat)) : State :=
  let p := { p with hdr := { p.hdr with tag := tag } }
  let s := s.modHst fun h =>
    match rd with
    | some (t, n) => { h with inReads := h.inReads ++ [{ tag := tag, hostTag := t, len := n, time := s.now }] }
    | none => { h with inWrites := h.inWrites ++ [(tag, s.hostTarget p.hdr)] }
  let s := s.inject p
  if s.tagBusy 3 tag then s else s.hostTake tag s.bus.err []


/-- Contiguous runs of enabled bytes, with their offsets (R306). -/
def byteRuns : Nat → List (Option Byte) → List (Nat × List Byte)
  | _, [] => []
  | o, none :: r => byteRuns (o + 1) r
  | o, some b :: r =>
    match byteRuns (o + 1) r with
    | (q, l) :: t => if q = o + 1 then (o, b :: l) :: t else (o, [b]) :: (q, l) :: t
    | [] => [(o, [b])]

/-- An inbound request wakes a device in SLEEP or DEEP (Table 3.7), and takes the link out of L1. -/
def State.hostWake (s : State) : State :=
  if s.mode = .sleep ∨ s.mode = .deep then (s.modHst fun h => { h with lstate := 0 }).fireWake 1 else s

/-- BAR accesses reach the network in RUN and SLEEP only (R315). -/
def State.hostOpen (s : State) : Bool := s.mode == .run || s.mode == .sleep

/-! ## The endpoint-local block (Table 12.9) -/

def MbState.code : MbState → Nat | .idle => 0 | .req => 1 | .busy => 2 | .done => 3

/-- A word of a byte table. -/
def tabWord (t : Tab Byte) (o : Nat) : Word := BitVec.ofNat 32 (leNat ((List.range 4).map fun i => t.getD (o + i) 0))

/-- Put bytes in a byte table. -/
def tabPut (t : Tab Byte) (o : Nat) (l : List Byte) : Tab Byte := l.zipIdx.foldl (fun t x => t.set 0 (o + x.2) x.1) t

/-- A register of the endpoint-local block, at a multiple of 4; every vector starts masked (notes/assumptions/67.md). -/
def State.elbRead (s : State) (o : Nat) : Option Word :=
  let h := s.hst
  if o = 0 then
    some (ofFields [(0, s.mode.code), (4, s.pwr.prev.code), (8, s.pwr.cause.code), (12, s.brk.a.halted.toNat)])
  else if o = 4 then s.pwrRead 0x14
  else if o = 8 then some (ofFields [(0, s.tbs.devNum.toNat), (8, s.fuse 72 4), (12, s.fuse 69 2), (14, s.fuse 71 1)])
  else if o = 0xC ∨ o = 0x10 then some 0
  else if o = 0x14 then some (ofFields [(0, h.mb.code), (2, h.overrun.toNat), (16, h.doneSeq.toNat)])
  else if o = 0x18 then some (ofFields [(0, h.mbVector.toNat)])
  else if 0x1000 ≤ o ∧ o < 0x2000 then some (tabWord h.mbReq (o - 0x1000))
  else if 0x2000 ≤ o ∧ o < 0x3000 then some (tabWord h.mbRsp (o - 0x2000))
  else if 0x10000 ≤ o ∧ o < 0x18000 then
    let i := (o - 0x10000) / 4
    some (h.msixTab.getD i 0 ^^^ if i % 4 = 3 then 1 else 0)
  else if 0x18000 ≤ o ∧ o < 0x18100 then
    some ((List.range 32).foldl (fun w i => setBit w i (h.pba.getD (8 * (o - 0x18000) + i) false)) 0)
  else none

/-- The doorbell (Table 12.7). -/
def State.doorbell (s : State) (v : Word) : State :=
  if s.hst.mb = .idle ∨ s.hst.mb = .done then
    (s.modHst fun h => { h with mb := .req, seq := BitVec.ofNat 16 v.toNat, overrun := false }).modPair 0 fun x =>
      { x with irqMailbox := true, wfi := false }
  else s.modHst fun h => { h with overrun := true }

/-- A host write to MB_REQ (Table 12.7). -/
def State.putReq (s : State) (o : Nat) (l : List Byte) : State :=
  if s.hst.mb = .req ∨ s.hst.mb = .busy then s.modHst fun h => { h with overrun := true }
  else s.modHst fun h => { h with mbReq := tabPut h.mbReq o l }

/-- A write of one word of the block with its byte enables. -/
def State.elbWrite (s : State) (o : Nat) (bs : List (Option Byte)) : State :=
  let old := (s.elbRead o).getD 0
  let v := BitVec.ofNat 32 (leNat (bs.zipIdx.map fun x => x.1.getD (BitVec.ofNat 8 (old.toNat / 2 ^ (8 * x.2)))))
  if o = 0xC then (if v.getLsbD 0 then s.hostWake else s)
  else if o = 0x10 then s.doorbell v
  else if o = 0x18 then s.modHst fun h => { h with mbVector := BitVec.ofNat 11 v.toNat }
  else if 0x1000 ≤ o ∧ o < 0x2000 then (byteRuns (o - 0x1000) bs).foldl (fun s r => s.putReq r.1 r.2) s
  else if 0x10000 ≤ o ∧ o < 0x18000 then
    let i := (o - 0x10000) / 4
    s.modHst fun h => { h with msixTab := h.msixTab.set 0 i (if i % 4 = 3 then (v &&& 1) ^^^ 1 else v) }
  else s

/-- A write TLP to the block, word by word; the first word may start within one. -/
def State.elbWrites (s : State) (o : Nat) (bs : List (Option Byte)) : State :=
  let l := List.replicate (o % 4) none ++ bs
  let l := l ++ List.replicate ((4 - l.length % 4) % 4) none
  (List.range (l.length / 4)).foldl (fun s i =>
    let w := (l.drop (4 * i)).take 4
    if w.all (·.isNone) then s else s.elbWrite (o / 4 * 4 + 4 * i) w) s

/-- The bytes of a read of the block; none where a word does not exist. -/
def State.elbBytes (s : State) (o n : Nat) : Option (List Byte) :=
  let k := (o % 4 + n + 3) / 4
  let ws := (List.range k).map fun i => s.elbRead (o / 4 * 4 + 4 * i)
  if ws.all (·.isSome) then some (((ws.flatMap fun w => leBytes (w.getD 0).toNat 4).drop (o % 4)).take n) else none

/-! ## The receive buffer (R306, R307) -/

/-- The oldest waiting TLP goes on when R306 and the tags allow: a read, and an access of the endpoint-local block, once every
earlier posted write has been answered, and a write that is not to the target of the one before it too. -/
def State.hostStep (s : State) : State :=
  let idle := s.hst.inWrites.isEmpty
  match s.hst.inWait with
  | [] => s
  | x :: r =>
    let pop : State := s.modHst fun h => { h with inWait := r }
    match x with
    | .write [] => pop
    | .write (p :: l) =>
      match s.hostTag with
      | some tag =>
        if idle || s.hst.inWrites.getLast?.map (·.2) == some (s.hostTarget p.hdr) then
          (s.modHst fun h => { h with inWait := if l.isEmpty then r else .write l :: r }).hostSend p tag none
        else s
      | none => s
    | .read _ t 0 => if idle then pop.sendTlps [.cpl (.sc t [0, 0, 0, 0])] else s
    | .read p t n =>
      match s.hostTag with
      | some tag => if idle then pop.hostSend p tag (some (t, n)) else s
      | none => s
    | .elbRead o n t =>
      if idle then
        match s.elbBytes o n with
        | some l => pop.sendTlps [.cpl (.sc t (if n = 0 then [0, 0, 0, 0] else l))]
        | none => pop.sendUr t
      else s
    | .elbWrite o l => if idle then pop.elbWrites o l else s

/-- TLPs leave the receive buffer as far as they can. -/
def State.hostPump (s : State) : State := forN 512 (fun _ s => s.hostStep) s

/-- A TLP enters the receive buffer; one that finds it full is not sent, for want of credits (R307). -/
def State.hostAccept (s : State) (x : HostWait) : State :=
  if 256 ≤ s.hst.inWait.length then s else (s.modHst fun h => { h with inWait := h.inWait ++ [x] }).hostPump

/-! ## Outbound requests (R309 to R313) -/

/-- The host address of a local one. -/
def State.hostAddr (s : State) (a : Nat) : BitVec 64 := BitVec.ofNat 64 (s.hst.outHi.toNat * 2 ^ 47 + (a - 0x800000000000))

/-- The TLPs of a WRITE, of at most 512 B each. -/
def writeTlps (a : BitVec 64) (l : List Byte) : List Tlp :=
  (List.range ((l.length + 511) / 512)).map fun i => .memWrite (a + BitVec.ofNat 64 (512 * i)) ((l.drop (512 * i)).take 512)

/-- An outbound request of an up link is sent; a WRITE is answered once its TLPs are accepted. -/
def State.sendOut (s : State) (r : HostOut) : State :=
  let a := s.hostAddr r.pkt.hdr.addr.toNat
  if r.pkt.hdr.isRead then
    (s.sendTlps [.memRead r.tag a r.pkt.hdr.bytes]).modHst fun h =>
      { h with outs := h.outs.map fun x => if x.tag = r.tag then { x with sent := true, time := s.now } else x }
  else
    ((s.sendTlps (writeTlps a r.pkt.data)).modHst fun h => { h with outs := h.outs.filter fun x => x.tag != r.tag }).respond r.pkt .ok []

/-- Tags that exist: 14 bits in Flit mode, 10 otherwise (Table 12.1). -/
def Hst.tagSpace (h : Hst) : Nat := if h.flit then 2 ^ 14 else 2 ^ 10

/-- The next free outbound tag; at most 512 requests are outstanding. -/
def Hst.outTag (h : Hst) : Option (BitVec 14) :=
  if 512 ≤ h.outs.length then none
  else ((List.range 513).find? fun i => !h.outs.any fun x => x.tag.toNat == (h.nextTag.toNat + i) % h.tagSpace).map fun i =>
    BitVec.ofNat 14 ((h.nextTag.toNat + i) % h.tagSpace)

/-- A request to host outbound reaches the endpoint. -/
def State.hostOut (s : State) (p : Packet) : State :=
  if !(p.hdr.isRead || p.hdr.isWrite) then (s.takeTarget p).respond p .decode []
  else if !s.hst.bme then (s.takeTarget p).respond p .hostError []
  else match s.hst.outTag with
    | none => s
    | some tag =>
      let r : HostOut := { tag := tag, pkt := p, data := [], poisoned := false, sent := false, time := s.now, expired := none }
      let s := (s.takeTarget p).modHst fun h => { h with outs := h.outs ++ [r], nextTag := BitVec.ofNat 14 ((tag.toNat + 1) % h.tagSpace) }
      if s.hst.up then s.sendOut r else s

/-- A completion (R310). -/
def State.hostCpl (s : State) (tag : BitVec 14) (status : CplStatus) (data : List Byte) : State :=
  match s.hst.outs.find? fun r => r.tag == tag && r.sent && r.expired.isNone with
  | none =>
    ((s.aer aerUnexpected).modHst fun h => { h with unexp := satInc h.unexp }).raise .hstUnexpCpl (BitVec.ofNat 32 tag.toNat)
  | some r =>
    let s := if status = .scPoisoned then (s.aer aerPoisoned).raise .hstPoisonRx 1 else s
    let r' := { r with data := r.data ++ data, poisoned := r.poisoned || status == .scPoisoned }
    let fin := status == .urOrCa || decide (r.pkt.hdr.bytes ≤ r'.data.length)
    if fin then
      (s.modHst fun h => { h with outs := h.outs.filter fun x => x.tag != tag }).respond r.pkt
        (if status = .urOrCa then .hostError else if r'.poisoned then .poison else .ok) (r'.data.take r.pkt.hdr.bytes)
    else s.modHst fun h => { h with outs := h.outs.map fun x => if x.tag = tag then r' else x }

/-- The completion timeout in use, µs (Table 12.4). -/
def Hst.cplUs (h : Hst) : Nat :=
  match h.cplTo.toNat with
  | 1 => 100 | 2 => 10000 | 5 => 55000 | 6 => 210000 | _ => 50000

/-! ## MSI-X (R319) -/

/-- The address and data of a vector's message: the first three words of its table entry (PRESUMED: PCI Express Base
Specification 6.0, notes/assumptions/66.md). -/
def Hst.msixMessage (h : Hst) (v : Nat) : Tlp :=
  .msix v (BitVec.ofNat 64 ((h.msixTab.getD (4 * v) 0).toNat + 2 ^ 32 * (h.msixTab.getD (4 * v + 1) 0).toNat)) (h.msixTab.getD (4 * v + 2) 0)

/-- A pending vector may be sent. -/
def Hst.msixGo (h : Hst) (v : Nat) : Bool :=
  h.up && h.bme && h.msixEn && !h.funcMask && h.pba.getD v false && (h.msixTab.getD (4 * v + 3) 0).getLsbD 0 &&
    !h.outs.any fun r => r.pkt.hdr.isWrite

/-! ## The mailbox and the monitor (R320, R321, R344) -/

/-- A write to `HST_MB_CTRL` (Table 12.7). -/
def State.mbCtrl (s : State) (v : Word) : State :=
  match field v 0 2, s.hst.mb with
  | 1, .req => (s.modHst fun h => { h with mb := .busy }).modPair 0 fun x => { x with irqMailbox := false }
  | 2, .busy => (s.modHst fun h => { h with mb := .done, doneSeq := h.seq }).trigMsix s.hst.mbVector.toNat
  | _, _ => s

/-- n bytes of the request from offset o, as a number. -/
def Hst.reqNat (h : Hst) (o n : Nat) : Nat := leNat ((List.range n).map fun i => h.mbReq.getD (o + i) 0)

/-- The payload of the request. -/
def Hst.reqLen (h : Hst) : Nat := h.reqNat 4 4
def Hst.payload (h : Hst) : List Byte := (List.range h.reqLen).map fun i => h.mbReq.getD (8 + i) 0

/-- The commands of Table 12.8. -/
def monitorCmds : List Nat := [1, 2, 0x10, 0x11, 0x20, 0x21, 0x30, 0x31]

/-- The monitor writes its response. -/
def State.mbReply (s : State) (status : Nat) (l : List Byte) : State :=
  s.modHst fun h =>
    { h with mbRsp := tabPut h.mbRsp 0 (leBytes (h.reqNat 0 2 + status * 2 ^ 16) 4 ++ leBytes l.length 4 ++ l) }

/-- The monitor serves the request it has taken, when its CMD is `cmd` and LEN is right; an unknown CMD is answered UNKNOWN. -/
def State.monitor (s : State) (cmd : Nat) (lenOk : Bool) (k : State → State) : State :=
  let c := s.hst.reqNat 2 2
  if !s.on || s.hst.mb != .busy || !s.brk.a.runs then s
  else if c = cmd then (if lenOk ∧ s.hst.reqLen ≤ 4088 then k s else s.mbReply 2 [])
  else if monitorCmds.contains c then s
  else s.mbReply 1 []

/-- STATUS of a network outcome. -/
def netStatus (e : Err) : Nat := if e = .ok then 0 else 3 + 256 * e.code

/-! ## Registers (Table 12.10) -/

/-- An HST register at an offset of the block. -/
def State.hstRead (s : State) (o : Nat) : Option Word :=
  let h := s.hst
  if o = 0 then
    some (ofFields [(0, h.up.toNat), (1, h.rate.toNat), (4, h.width.toNat), (8, h.flit.toNat), (9, h.bme.toNat), (10, h.msixEn.toNat),
      (11, h.funcMask.toNat), (12, h.d3hot.toNat), (13, h.lstate.toNat)])
  else if o = 4 then some (ofFields [(0, h.outHi.toNat)])
  else if o = 8 then some (ofFields [(0, h.cplUs)])
  else if o = 0xC then some (ofFields [(0, h.inLimit.toNat)])
  else if o = 0x10 then
    some (ofFields [(0, (h.outs.filter fun r => r.pkt.hdr.isRead && r.expired.isNone).length), (16, h.inReads.length + h.inWrites.length)])
  else if o = 0x14 then some 0
  else if o = 0x18 then some h.ctoCount
  else if o = 0x1C then some h.unexp
  else if o = 0x20 then some h.urCount
  else if o = 0x24 then some h.downCount
  else if o = 0x28 then some (match h.ctoLast with | none => 0 | some t => ofFields [(0, t.toNat), (31, 1)])
  else if 0x100 ≤ o ∧ o < 0x200 then
    let n := (o - 0x100) / 0x10
    match o % 0x10 with
    | 0 => some (BitVec.ofNat 32 (h.winBase.getD n 0).toNat)
    | 4 => some (BitVec.ofNat 32 ((h.winBase.getD n 0).toNat / 2 ^ 32))
    | 8 => some (h.winCtrl.getD n 0)
    | _ => none
  else if 0x8000 ≤ o ∧ o < 0x9000 then some (tabWord h.mbReq (o - 0x8000))
  else if 0x9000 ≤ o ∧ o < 0xA000 then some (tabWord h.mbRsp (o - 0x9000))
  else if o = 0xA000 then some (ofFields [(0, h.mb.code)])
  else none

/-- What a read of an RC register clears. -/
def State.hstClear (s : State) (o : Nat) : State :=
  s.modHst fun h =>
    if o = 0x18 then { h with ctoCount := 0 }
    else if o = 0x1C then { h with unexp := 0 }
    else if o = 0x20 then { h with urCount := 0 }
    else if o = 0x24 then { h with downCount := 0 }
    else h

/-- A write to an HST register. -/
def State.hstWrite (s : State) (o : Nat) (v : Word) : Option State :=
  if (s.hstRead o).isNone then none
  else if o = 4 then some (s.modHst fun h => { h with outHi := BitVec.ofNat 17 v.toNat })
  else if o = 0xC then some (s.modHst fun h => { h with inLimit := BitVec.ofNat 24 v.toNat })
  else if o = 0x14 then some (s.trigMsix (field v 0 11))
  else if 0x100 ≤ o ∧ o < 0x200 then
    let n := (o - 0x100) / 0x10
    some (s.modHst fun h =>
      if o % 0x10 = 0 then { h with winBase := h.winBase.mod 0 n fun b => setLo b (v &&& 0xFFFFF000) }
      else if o % 0x10 = 4 then { h with winBase := h.winBase.mod 0 n fun b => setHi b v }
      else { h with winCtrl := h.winCtrl.set 0 n (v &&& 0xFF03) })
  else if 0x9000 ≤ o ∧ o < 0xA000 then some (s.modHst fun h => { h with mbRsp := tabPut h.mbRsp (o - 0x9000) (leBytes v.toNat 4) })
  else if o = 0xA000 then some (s.mbCtrl v)
  else some s

/-! ## Commands -/

/-- Nothing arrives over a link that is down. -/
def State.overLink (s : State) (k : State → State) : State := if s.on && s.hst.up then k s else s

/-- HOST_MEM_WRITE (R304 to R308). -/
def execHostMemWrite (bar : Bar) (off : Nat) (bytes : List (Option Byte)) (poisoned : Bool) (s : State) : Host.Outcome State Fault Refusal :=
  .next (s.overLink fun s =>
    if poisoned then (s.aer aerPoisoned).raise .hstPoisonRx 0
    else match s.hostPlace bar off bytes.length with
      | .elb o => s.hostAccept (.elbWrite o bytes)
      | .none => s
      | .net dev a =>
        let s := s.hostWake
        if !s.hostOpen then s
        else s.hostAccept (.write ((byteRuns a bytes).map fun r => s.hostReq dev r.1 r.2.length (some r.2))))

/-- HOST_MEM_READ (R304 to R307, R315). -/
def execHostMemRead (bar : Bar) (off : Nat) (len : Nat) (hostTag : BitVec 14) (s : State) : Host.Outcome State Fault Refusal :=
  .next (s.overLink fun s =>
    match s.hostPlace bar off len with
    | .elb o => s.hostAccept (.elbRead o len hostTag)
    | .none => s.sendUr hostTag
    | .net dev a =>
      let s := s.hostWake
      if !s.hostOpen then s.sendUr hostTag else s.hostAccept (.read (s.hostReq dev a len none) hostTag len))

/-- The Device Serial Number: lot in bits 31:0, then wafer, die X and die Y (Table 12.1). -/
def State.serial (s : State) : Nat := s.fuse 0 32 + 2 ^ 32 * s.fuse 32 21

/-- The bits of a BAR's word that the host writes: 64 MiB for BAR0 and BAR2, 64 GiB for BAR4 (Table 12.2). -/
def barMask (i : Nat) : Word := match i with | 0 | 2 => 0xFC000000 | 4 => 0 | 5 => 0xFFFFFFF0 | _ => 0xFFFFFFFF

/-- A word of configuration space: identity, class and revision, BME, and the BARs, 64-bit and, but for BAR0, prefetchable
(Table 12.1; the offsets are those of the PCI Express Base Specification 6.0, PRESUMED, notes/assumptions/66.md). -/
def State.cfgWord (s : State) (o : Nat) : Word :=
  if o = 0 ∨ o = 0x2C then 0x00961FC4
  else if o = 4 then setBit (Config.cfgWord o) 2 s.hst.bme
  else if o = 8 then 0x12000000 + BitVec.ofNat 32 (s.fuse 72 4)
  else if 0x10 ≤ o ∧ o < 0x28 then
    let i := (o - 0x10) / 4
    s.hst.bars.getD i 0 ||| (if i = 0 then 4 else if i % 2 = 0 then 0xC else 0)
  else Config.cfgWord o

/-- HOST_CONFIG_REQUEST (R303, R311, R314, R315, R317, R318): it is answered with SC. -/
def execHostConfigRequest (w : CfgReq) (hostTag : BitVec 14) (s : State) : Host.Outcome State Fault Refusal :=
  .next (s.overLink fun s =>
    let s := s.sendTlps [.cpl (.sc hostTag (match w with
      | .read o => leBytes (s.cfgWord (o.toNat / 4 * 4)).toNat 4
      | .readSerial hi => leBytes (if hi then s.serial / 2 ^ 32 else s.serial) 4
      | _ => []))]
    match w with
    | .none | .read _ | .readSerial _ => s
    | .bar i v => s.modHst fun h => { h with bars := h.bars.set 0 i.val (v &&& barMask i.val) }
    | .aerSeverity v => s.modHst fun h => { h with aerSev := v }
    | .bme true => s.modHst fun h => { h with bme := true }
    | .bme false =>
      let gone := s.hst.outs.filter fun r => !r.sent
      gone.foldl (fun s r => s.respond r.pkt .hostError [])
        (s.modHst fun h => { h with bme := false, outs := h.outs.filter fun r => r.sent })
    | .cplTimeout v off => s.modHst fun h => { h with cplTo := v, cplToOff := off }
    | .msix en mask => s.modHst fun h => { h with msixEn := en, funcMask := mask }
    | .power d3 => s.modHst fun h => { h with d3hot := d3 }
    | .aerClear m => s.modHst fun h => { h with aerUnc := h.aerUnc &&& ~~~m }
    | .l1 d => s.modHst fun h => { h with deepest := d })

/-- HOST_INBOUND_ANSWER (R307): the endpoint takes up the answer that the network has delivered. -/
def execHostInboundAnswer (tag : BitVec 6) (s : State) : Host.Outcome State Fault Refusal :=
  .next (s.whenOn fun s =>
    match s.hst.answers.find? fun a => a.1 == tag with
    | none => s
    | some a =>
      ((s.modHst fun h => { h with answers := removeFirst (fun a => a.1 == tag) h.answers }).hostTake tag a.2.1 a.2.2).hostPump)

/-- HOST_IN_LIMIT_EXPIRE (R307). -/
def execHostInLimitExpire (tag : BitVec 6) (s : State) : Host.Outcome State Fault Refusal :=
  .next (match s.hst.inReads.find? fun r => r.tag == tag with
    | none => s
    | some r =>
      let s := s.advanceTo (r.time + 1000 * s.hst.inLimit.toNat)
      let s := s.modHst fun h =>
        { h with inReads := removeFirst (fun x => x.tag == tag) h.inReads, lateTags := setBit h.lateTags tag.toNat true }
      (((s.sendTlps [.cpl (.ca r.hostTag)]).aer aerAbort).raise .hstInTimeout 0).hostPump)

/-- HOST_OUTBOUND_REQUEST (R309, R311). -/
def execHostOutboundRequest (p : Packet) (s : State) : Host.Outcome State Fault Refusal := .next (s.whenOn fun s => s.hostOut p)

/-- HOST_COMPLETION (R310). -/
def execHostCompletion (tag : BitVec 14) (status : CplStatus) (data : List Byte) (s : State) : Host.Outcome State Fault Refusal :=
  .next (s.overLink fun s => s.hostCpl tag status data)

/-- COMPLETION_TIMEOUT (R312, R313): between 1.0 and 1.1 times the value in use after the request was sent, where in between
being a free value. -/
def execCompletionTimeout (tag : BitVec 14) (s : State) : Host.Outcome State Fault Refusal :=
  .next (match s.hst.outs.find? fun r => r.tag == tag && r.expired.isNone with
    | none => s
    | some r =>
      let v := 1000 * s.hst.cplUs
      let s := (s.advanceTo (r.time + v + s.free.toNat % (v / 10 + 1))).useFree
      let s := s.modHst fun h =>
        { h with outs := h.outs.map fun x => if x.tag = tag then { x with expired := some s.now } else x
                 ctoCount := satInc h.ctoCount, ctoLast := some tag }
      ((s.aer aerTimeout).raise .hstCplTimeout (BitVec.ofNat 32 tag.toNat)).respond r.pkt .hostTimeout [])

/-- HOST_TAG_FREE (R313). -/
def execHostTagFree (tag : BitVec 14) (s : State) : Host.Outcome State Fault Refusal :=
  .next (match (s.hst.outs.find? fun r => r.tag == tag).bind (·.expired) with
    | none => s
    | some t => (s.advanceTo (t + 256000)).modHst fun h => { h with outs := h.outs.filter fun x => x.tag != tag })

/-- HOT_RESET (R314): a hot reset or DL_Down. -/
def execHotReset (s : State) : Host.Outcome State Fault Refusal :=
  .next (s.overLink fun s =>
    (s.modHst fun h => { h with up := false, lstate := 0, downCount := satInc h.downCount }).raise .hstLinkDown 0)

/-- HOST_LINK_UP (R303, R315, R317): once the pin is high and the PCIe reference good. -/
def execHostLinkUp (rate : BitVec 3) (width : BitVec 4) (flit : Bool) (s : State) : Host.Outcome State Fault Refusal :=
  let top := if s.fuse 69 2 = 1 then 4 else 5
  let ok := s.on && s.pwr.pinHigh && s.clk.good.getLsbD 2 && !s.hst.up && decide (rate.toNat ≤ top) &&
    (rate.toNat != 5 || flit) && [1, 2, 4, 8].contains width.toNat
  .next (if ok then
      let first := !s.hst.ltrSent
      let s := s.modHst fun h => { h with up := true, rate := rate, width := width, flit := flit, lstate := 0, ltrSent := true }
      let s := s.raise .hstLinkUp (ofFields [(0, rate.toNat), (3, width.toNat)])
      let s := if first then s.sendTlps [.ltr 20] else s
      (s.hst.outs.filter fun r => !r.sent && r.expired.isNone).foldl State.sendOut s
    else s)

/-- ELB_WAKE (R316). -/
def execElbWake (val : Word) (s : State) : Host.Outcome State Fault Refusal :=
  .next (s.overLink fun s => if val.getLsbD 0 then s.hostWake else s)

/-- HST_MSIX_SEND (R319). -/
def execHstMsixSend (m : MasterId) (val : Word) (s : State) : Host.Outcome State Fault Refusal :=
  .next (s.regWrite m 0xC00014 fun s => s.trigMsix (field val 0 11))

/-- MSIX_MESSAGE (R319). -/
def execMsixMessage (v : Fin 2048) (s : State) : Host.Outcome State Fault Refusal :=
  .next (if s.on && s.hst.msixGo v then (s.modHst fun h => { h with pba := h.pba.set false v false }).sendTlps [s.hst.msixMessage v] else s)

/-- MB_DOORBELL (R320). -/
def execMbDoorbell (val : Word) (s : State) : Host.Outcome State Fault Refusal := .next (s.overLink fun s => s.doorbell val)

/-- MB_REQ_WRITE (R320): one word at a byte offset that is a multiple of 4. -/
def execMbReqWrite (off : BitVec 12) (val : Word) (s : State) : Host.Outcome State Fault Refusal :=
  .next (s.overLink fun s => s.putReq (off.toNat / 4 * 4) (leBytes val.toNat 4))

/-- MB_TAKE (R320). -/
def execMbTake (m : MasterId) (val : Word) (s : State) : Host.Outcome State Fault Refusal :=
  .next (s.regWrite m 0xC0A000 fun s => if field val 0 2 = 1 then s.mbCtrl 1 else s)

/-- MB_DONE (R320). -/
def execMbDone (m : MasterId) (val : Word) (s : State) : Host.Outcome State Fault Refusal :=
  .next (s.regWrite m 0xC0A000 fun s => if field val 0 2 = 2 then s.mbCtrl 2 else s)

/-- PING (Table 12.8). -/
def execPing (s : State) : Host.Outcome State Fault Refusal := .next (s.monitor 1 true fun s => s.mbReply 0 s.hst.payload)

/-- LOG (Table 12.8). -/
def execLog (s : State) : Host.Outcome State Fault Refusal :=
  let first := s.hst.reqNat 8 4
  let n := s.hst.reqNat 12 4
  .next (s.monitor 0x20 (s.hst.reqLen == 8 && decide (n ≤ 255)) fun s =>
    s.mbReply 0 ((List.range n).flatMap fun i => (List.range 4).flatMap fun j => leBytes (s.evt.logWord ((first + i) % 1024) j).toNat 4))

/-- LEDGER (Table 12.8). -/
def execLedger (s : State) : Host.Outcome State Fault Refusal :=
  let first := s.hst.reqNat 8 4
  let n := s.hst.reqNat 12 4
  .next (s.monitor 0x21 (s.hst.reqLen == 8 && decide (n ≤ 127)) fun s =>
    s.mbReply 0 ((List.range n).flatMap fun i => (List.range 8).flatMap fun j => leBytes (s.evt.ledgerWord (32 * ((first + i) % 512) + 4 * j)).toNat 4))

/-- HALT_B (Table 12.8). -/
def execHaltB (s : State) : Host.Outcome State Fault Refusal :=
  .next (s.monitor 0x30 (s.hst.reqLen == 0) fun s => (s.haltReq 1 2).mbReply 0 [])

/-- RESUME_B (Table 12.8). -/
def execResumeB (s : State) : Host.Outcome State Fault Refusal :=
  .next (s.monitor 0x31 (s.hst.reqLen == 0) fun s => (s.resumePair 1).mbReply 0 [])

/-- HOST_LINK_ERROR (R318). -/
def execHostLinkError (e : HostErr) (s : State) : Host.Outcome State Fault Refusal :=
  .next (s.overLink fun s =>
    if e.bit.2 then (s.aer e.bit.1).raise .hstLinkErr (BitVec.ofNat 32 e.bit.1)
    else s.modHst fun h => { h with aerCor := setBit h.aerCor e.bit.1 true })

end Sys2Proof.Machine
end

