-- ==== Sys2Proof/Machine/Fuses.lean ====
section
/-! DEFINITION. The access-table registers and the fuse array (chapter 14, R353 to R362): the PRT and FUS registers and
the commands of this family. -/

namespace Sys2Proof.Machine

/-! ## Programming -/

/-- The fuse bits a mask touches in a word. -/
def maskBits (w : BitVec 9) (mask : Word) : List Nat :=
  ((List.range 32).filter fun i => mask.getLsbD i).map (32 * w.toNat + ·)

/-- Fuse bit i is locked, by the lock bits the array holds at the moment of the command (R360): a bound by its BND_LOCK
bit, KEY_HASH by HASH_LOCK, AES_KEY by KEY_SET. -/
def fuseLocked (t : Tab Word) (i : Nat) : Bool :=
  if 4224 ≤ i ∧ i < 4245 then fuseBit t (4272 + (i - 4224) / 7)
  else if 4245 ≤ i ∧ i < 4272 then fuseBit t (4275 + (i - 4245) / 9)
  else if 4416 ≤ i ∧ i < 4800 then fuseBit t 4292
  else if 4800 ≤ i ∧ i < 5056 then fuseBit t 4293
  else false

/-- The result a command is refused with, in the order of R360: MODE, BUSY, PROTECTED, LOCKED, or 0 where it is taken. -/
def State.progRefusal (s : State) : BitVec 3 :=
  let l := maskBits s.fus.word s.fus.mask
  if s.mode ≠ .run then 5
  else if s.fus.burning.isSome then 1
  else if l.any (fun i => decide (i < 128)) then 2
  else if l.any (fuseLocked s.fus.array) then 3
  else 0

/-- `FUS_PROG_CMD` (R359, R360): a write with another KEY, or without GO, is ignored. -/
def State.fusCmd (s : State) (v : Word) : State :=
  if field v 0 16 = 0x5AF3 ∧ v.getLsbD 31 then
    let r := s.progRefusal
    s.modFus fun f =>
      if r = 0 then { f with burning := some (f.word, f.mask), burnAt := s.now, resWord := f.word }
      else { f with result := r, resWord := f.word }
  else s

/-- Bits of a command that are still 0 in the array. -/
def State.burnBits (s : State) (w : BitVec 9) (mask : Word) : Word := mask &&& ~~~(s.fus.array.getD w.toNat 0)

/-- The bits of a command have been burned and read back; those of `again` read 0 and were burned once more, and those of them
in `stuck` read 0 after that too (R361). A burn takes 10 µs. PENDING tells that the array has changed
(notes/assumptions/68.md). -/
def State.burnDone (s : State) (again stuck : Word) : State :=
  match s.fus.burning with
  | none => s
  | some (w, mask) =>
    let new := s.burnBits w mask
    let twice := new &&& again
    let bad := twice &&& stuck
    let s := s.advanceTo (s.fus.burnAt + 10000 * (popCount new.toNat 32 + popCount twice.toNat 32))
    let s := s.modFus fun f =>
      { f with
        burning := none, array := f.array.mod 0 w.toNat fun x => x ||| (new &&& ~~~bad)
        pending := f.pending || (new &&& ~~~bad) != 0, result := if bad = 0 then 0 else 4
        resWord := w, fail := if bad = 0 then f.fail else bad }
    if bad = 0 then s.raise .fusProgDone (ofFields [(0, w.toNat)]) else s.raise .fusProgFail (ofFields [(0, w.toNat)])

/-! ## Registers -/

/-- `PRT_STATUS` (Table 14.7, R354). -/
def State.prtStatus (s : State) : Word :=
  ofFields [(0, (!fuseBit s.fus.latched 4278).toNat), (1, s.img.signed.toNat), (2, s.img.encrypted.toNat),
    (3, s.img.keyMatched.toNat)]

/-- `PRT_QUERY_RESULT` (Table 14.7): the deny bits in effect for the master and target of `PRT_QUERY`, and whether the
first row of Table 14.4 overrides the fuses. -/
def State.prtQuery (s : State) : Word :=
  let m := BitVec.ofNat 6 (field s.fus.query 0 6)
  let t := field s.fus.query 8 5
  let exempt := m == 0 && decide (t ≤ 8)
  ofFields [(0, (!exempt && s.denyRd m t).toNat), (1, (!exempt && s.denyWr m t).toNat), (2, exempt.toNat)]

/-- A PRT register at an offset of its block (Table 14.7). -/
def State.prtRead (s : State) (o : Nat) : Option Word :=
  let b := s.brwBounds
  let d := s.ddrBounds
  if o = 0 then some s.prtStatus
  else if o = 4 then some (ofFields [(0, b.1), (8, b.2.1), (16, b.2.2)])
  else if o = 8 then some (ofFields [(0, d.1), (10, d.2.1), (20, d.2.2)])
  else if o = 0x10 then some s.fus.query
  else if o = 0x14 then some s.prtQuery
  else if o = 0x20 then some s.fus.denyCount
  else if o = 0x24 then some s.fus.denyLast
  else none

/-- What a read of an RC register clears (Table 14.7). -/
def State.prtClear (s : State) (o : Nat) : State := if o = 0x20 then s.modFus fun f => { f with denyCount := 0 } else s

/-- A write to a PRT register (Table 14.7). -/
def State.prtWrite (s : State) (o : Nat) (v : Word) : Option State :=
  if (s.prtRead o).isNone then none
  else if o = 0x10 then some (s.modFus fun f => { f with query := v &&& 0x1F3F }) else some s

/-- The bits of a fuse word that Table 14.5 lists: any other reads 0 (R356). -/
def fuseListed (w : Nat) : Word :=
  if w = 2 then 0x000F1FFF
  else if w = 3 then 0xFFFF0000
  else if w = 133 then 0x007FFFFF
  else if w = 134 then 0x3F
  else if w = 135 ∨ 190 ≤ w then 0
  else 0xFFFFFFFF

/-- `FUS_WORD_w`: the word latched in SENSE; the words of AES_KEY read 0 (R353, R356, R366). -/
def State.fusWord (s : State) (w : Nat) : Word := if 150 ≤ w ∧ w ≤ 157 then 0 else s.fus.latched.getD w 0 &&& fuseListed w

/-- A FUS register at an offset of its block (Table 14.8). -/
def State.fusRead (s : State) (o : Nat) : Option Word :=
  let f := s.fus
  if o = 0 then
    some (ofFields [(0, f.idOk.toNat), (1, s.hashLock.toNat), (2, s.keySet.toNat), (3, s.authReq.toNat), (4, s.ledgerDis.toNat),
      (5, f.pending.toNat), (6, f.burning.isSome.toNat)])
  else if o = 4 then some (ofFields [(0, f.word.toNat)])
  else if o = 8 then some f.mask
  else if o = 0xC then some 0
  else if o = 0x10 then some (ofFields [(0, f.burning.isSome.toNat), (1, f.result.toNat), (4, f.resWord.toNat)])
  else if o = 0x14 then some f.fail
  else if 0x1000 ≤ o ∧ o < 0x1800 then some (s.fusWord ((o - 0x1000) / 4))
  else none

/-- A write to a FUS register (Table 14.8). -/
def State.fusWrite (s : State) (o : Nat) (v : Word) : Option State :=
  if (s.fusRead o).isNone then none
  else if o = 4 then some (s.modFus fun f => { f with word := BitVec.ofNat 9 v.toNat })
  else if o = 8 then some (s.modFus fun f => { f with mask := v })
  else if o = 0xC then some (s.fusCmd v)
  else some s

/-! ## Commands -/

/-- FUS_PROG (R359, R360). -/
def execFusProg (m : MasterId) (val : Word) (s : State) : Host.Outcome State Fault Refusal :=
  .next (s.regWrite m 0xF0000C fun s => s.fusCmd val)

/-- FUS_PROG_COMPLETE (R361). -/
def execFusProgComplete (again stuck : Word) (s : State) : Host.Outcome State Fault Refusal :=
  .next (s.whenOn fun s => s.burnDone again stuck)

end Sys2Proof.Machine
end

