-- ==== Sys2Proof/Machine/Image.lean ====
section
/-! DEFINITION. From the flash to a configured device (R83 to R87, R254, R370 to R383): the system section in LOCK, the
slot table and the slots in LOAD, the checks and the end of VERIFY, and the commands of this family. -/

namespace Sys2Proof.Machine

/-! ## Whole-image checks -/

/-- Bytes lo to hi − 1 are all 0. -/
def zeroSpan (l : List Byte) (r : Nat × Nat) : Bool := (slice l r.1 (r.2 - r.1)).all (· == 0)

/-- The header bytes that Tables 15.1 to 15.3 do not list are 0 (R370). -/
def reservedZero (l : List Byte) : Bool :=
  [(0x2C, 0x30), (0x91, 0x100), (0x14C, 0x150), (0x15A, 0x15C), (0x259, 0x25C), (0x260, 0x400), (0x7F0, 0x7FC), (0x803, 0x804),
    (0x838, 0x840), (0x942, 0x944), (0x947, 0xFFC)].all (zeroSpan l)

/-- The trailer follows the last section and ends the image (R371). -/
def trailerOk (l : List Byte) (len : Nat) : Bool :=
  lastEnd l + (if imgEncrypted l then 16 else 0) + (if imgSigned l then 96 else 0) == len

/-- A REGS address names a register, or a field, whose reset value the manual gives as the image's (R373;
notes/assumptions/69.md). -/
def imageReg (a : Nat) : Bool :=
  let blk := a / 0x100000
  let o := a % 0x100000
  a % 4 == 0 &&
    if blk = 4 then decide (0x1000 ≤ o ∧ o < 0x1C00) && o % 0x40 == 0xC
    else if blk = 5 then o == 0 || o == 0xC || decide (0x100 ≤ o ∧ o < 0x1C0)
    else if blk = 6 then decide (0x10 ≤ o ∧ o < 0x30) || decide (0x10000 ≤ o ∧ o < 0x18000)
    else if blk = 7 then decide (0x100 ≤ o ∧ o < 0x180)
    else if blk = 8 then
      (decide (0x1000 ≤ o ∧ o < 0x1400) && o % 0x100 == 0) || (decide (0x8000 ≤ o ∧ o < 0x9000) && (o % 0x40 == 0 || o % 0x40 == 8))
    else if blk = 9 then
      decide (o < 0x60) || (decide (0x1000 ≤ o ∧ o < 0x2800) && (o % 0x40 == 0 || o % 0x40 == 8 || o % 0x40 == 0xC))
    else if blk = 11 then
      let b := o % 0x8000
      decide (o / 0x8000 < 24) &&
        (b == 0 ||
          (decide (0x100 ≤ b ∧ b < 0x200) && (b % 0x40 == 0 || b % 0x40 == 8 || b % 0x40 == 0xC || b % 0x40 == 0x14)) ||
          (decide (0x400 ≤ b ∧ b < 0xC00) && (b % 0x40 == 0 || b % 0x40 == 8 || b % 0x40 == 0xC || b % 0x40 == 0x10 ||
            (decide (0x800 ≤ b) && (b % 0x40 == 0x1C || b % 0x40 == 0x20)))) ||
          decide (0x1000 ≤ b ∧ b < 0x1400))
    else if blk = 16 then decide (0x100 ≤ o ∧ o < 0x220) || decide (0x400 ≤ o ∧ o < 0x440)
    else if blk = 17 then decide (0x100 ≤ o ∧ o < 0x140) || decide (0x400 ≤ o ∧ o < 0x440)
    else false

/-- Every REGS address is allowed, and no pair gives RELOAD to a static den (R172, R373). -/
def regsOk (l : List Byte) (ps : List (Nat × Word)) : Bool :=
  ps.all fun p => imageReg p.1 &&
    !(decide (0x500100 ≤ p.1 ∧ p.1 < 0x5001C0) && field p.2 0 2 == 2 && (leAt l 0x190 8).testBit ((p.1 - 0x500100) / 4))

/-- The content of an image whose planes can be read: safe states and the REGS rules (Table 15.6). -/
def contentOk (t : List Byte) : Bool :=
  let ps := regPairs t
  gapsZero t && safeOk t && regsOk t ps && beatsOk ps && memMapOk t ps && rawOk t ps

/-- Content can be read: an encrypted image wants a key (R364). -/
def State.readable (s : State) (l : List Byte) : Bool := !imgEncrypted l || s.keySet

/-- The LOAD row FORMAT of Table 15.6: header, directory, field ranges, content, and a system section that is still the
one of LOCK (R254). -/
def State.formatOk (s : State) (len : Nat) (l : List Byte) : Bool :=
  hdrOk imgMagic len l && reservedZero l && dirOk l && trailerOk l len && paramsOk l &&
    s.pwr.sysSection == some (slice l 0x800 0x800) && (!s.readable l || contentOk (s.plainText l (lastEnd l)))

/-- The reason a slot is rejected with once its read has ended, in the order of Table 3.5; 0 passes. -/
def State.loadReason (s : State) (flashOk : Bool) (len : Nat) (l : List Byte) : Nat :=
  if !flashOk then 1 else if !s.formatOk len l then 2 else if !s.partFits l then 3 else if !s.gradeFits l then 4 else 0

/-- The reason VERIFY rejects a slot with, in the order of Table 3.5, then the slot tables (Table 7.7). -/
def State.verifyReason (s : State) (l : List Byte) (readbackOk : Bool) (tables : List Nat) : Nat :=
  let stop := lastEnd l
  if s.ceiling < byteAt l 0x114 then 8
  else if !s.tagPasses l stop then 6
  else if !s.authPasses l (leAt l 8 4) then 5
  else if crc32 (slice l 4096 (stop - 4096)) != leAt l 0x14 4 then 7
  else if !readbackOk then 9
  else if tables.any fun t => (s.vnx.check t).isSome then 2
  else 0

/-! ## Slots -/

/-- No slot is left (R86). -/
def State.noImage (s : State) : State := (s.raise .cfgNoImage 0).enterStop 3

/-- A slot is rejected: its reason is shown and reported (R85). -/
def State.noteReject (s : State) (i reason : Nat) : State :=
  (s.modPwr fun p =>
    { p with reasons := BitVec.ofNat 16 (p.reasons.toNat - field p.reasons (4 * i) 4 * 2 ^ (4 * i) + reason * 2 ^ (4 * i)) }).raise
    .cfgSlotReject (ofFields [(0, i), (8, reason)])

/-- The slots of the table in use. -/
def State.slotCount (s : State) : Nat := match s.pwr.slotTable with | none => 0 | some t => min 4 t.count
def State.slotAt (s : State) (i : Nat) : Bool × Word :=
  match s.pwr.slotTable with | none => (false, 0) | some t => t.slots.getD i (false, 0)

/-- Try slots from i on: one whose VALID is 0 is rejected with EMPTY, and the first other one is read, in LOAD and on an
unconfigured device (R85, Table 3.2). With none left the device enters STOP from the mode it is in. -/
def State.seekSlot : Nat → Nat → State → State
  | 0, _, s => s.noImage
  | n + 1, i, s =>
    if s.slotCount ≤ i then s.noImage
    else if (s.slotAt i).1 then
      (if s.mode = .verify then s.loadEntry else s).unconfigure.modPwr fun p => { p with trySlot := i }
    else State.seekSlot n (i + 1) (s.noteReject i 10)

/-- A slot is rejected, and the next one is tried (R85, Table 3.2). -/
def State.reject (s : State) (reason : Nat) : State :=
  State.seekSlot 5 (s.pwr.trySlot + 1) (s.noteReject s.pwr.trySlot reason)

/-! ## What LOAD writes -/

/-- The image's registers return to their stated defaults (R373). -/
def State.imageDefaults (s : State) : State :=
  let s := s.modIoc fun i => { i with declared := {}, trig := i.trig.mapVals {} fun p =>
    { p with src := 0, idle := false, od := false, teVal := 0, teQ := [], level := false, acted := false, pulse := none, ev := none
             evLevel := false, evActive := false, evWidth := 100 } }
  let s := s.modLan fun x => { x with quad := {}, lanes := x.lanes.mapVals {} fun l => { l with ctrl := 0, fir := 0, peaking := 0 } }
  let s := s.modMem fun m =>
    { m with
      ch := m.ch.mapVals {} fun c => { c with cfg := 0 }
      dq := m.dq.mapVals {} fun d => { d with enable := false, ackWrites := false, owner := 0, rspBeats := 0, staleLimit := 0 } }
  let s := s.modVnx fun v => { v with frame := {}, slot := {}, validated := 0, epoch := 0, draining := 0, switching := 0, validating := none }
  let s := s.modMacs fun t => t.mapVals {} fun x =>
    { x with
      config := 0, defaultPcp := 0, steer := {}, queues := {}
      ports := x.ports.mapVals {} fun y => { y with ctrl := 0, addr := 0, tsAdj := 0, sending := none, sendingCtl := none, ctlOut := [], xoff := 0 } }
  s.modEvt fun e => { e with route := {} }

/-- A trigger pin takes its image value (Table 4.11). -/
def TrigPin.load (p : TrigPin) (v : Word) : TrigPin :=
  { p with src := BitVec.ofNat 2 (field v 0 2), idle := v.getLsbD 2, od := v.getLsbD 3, teVal := ofFields [(0, field v 0 3)]
           level := v.getLsbD 2 }

/-- A drain limit of 0 stands for 2,000 ns (Table 5.4). -/
def drainLimitOf (v : Nat) : BitVec 24 := if v % 2 ^ 24 = 0 then 2000 else BitVec.ofNat 24 v

/-- A MAC register takes its image value (Table 11.6). -/
def State.loadMac (s : State) (m b : Nat) (v : Word) : State :=
  if b = 0 then s.modMac m fun x => { x with config := BitVec.ofNat 2 (field v 0 2), defaultPcp := BitVec.ofNat 3 (field v 2 3) }
  else if b < 0x200 then s.modPort m ((b - 0x100) / 0x40) fun x =>
    if b % 0x40 = 0 then { x with ctrl := v &&& 0xFFFF000F }
    else if b % 0x40 = 8 then { x with addr := setLo x.addr v }
    else if b % 0x40 = 0xC then { x with addr := setHi x.addr v }
    else { x with tsAdj := v }
  else if b < 0xC00 then s.modMacQ m ((b - 0x400) / 0x40) fun y =>
    if b % 0x40 = 0 then { y with cfg := v &&& (if b < 0x800 then 0x3F03FF else 0x3F01FF) }
    else if b % 0x40 = 8 then { y with base := setLo y.base v }
    else if b % 0x40 = 0xC then { y with base := setHi y.base v }
    else if b % 0x40 = 0x10 then { y with size := BitVec.ofNat 13 v.toNat }
    else if b % 0x40 = 0x1C then { y with thresh := v }
    else { y with staleLimit := BitVec.ofNat 24 v.toNat }
  else s.modMac m fun x => { x with steer := x.steer.set 0 ((b - 0x1000) / 4) (BitVec.ofNat 5 v.toNat) }

/-- A register takes its image value as its reset value (R373). -/
def State.loadReg (s : State) (p : Nat × Word) : State :=
  let blk := p.1 / 0x100000
  let o := p.1 % 0x100000
  let v := p.2
  if blk = 4 then s.modDen ((o - 0x1000) / 0x40) fun n => { n with drainLimit := drainLimitOf v.toNat }
  else if blk = 5 then s.modBdg fun b =>
    if o = 0 then { b with idleMode := v.getLsbD 0, failStop := v.getLsbD 2 }
    else if o = 0xC then
      if field v 0 24 = 0 then { b with lapTarget := 100000 }
      else if 40000 ≤ field v 0 24 ∧ field v 0 24 ≤ 10000000 then { b with lapTarget := BitVec.ofNat 24 v.toNat } else b
    else { b with policy := b.policy.set 0 ((o - 0x100) / 4) (BitVec.ofNat 2 (field v 0 2)) }
  else if blk = 6 then s.modVnx fun x =>
    if o < 0x10000 then { x with frame := x.frame.set 0 ((o - 0x10) / 4) (v &&& 0x0FFF07FF) }
    else { x with slot := x.slot.set 0 ((o - 0x10000) / 4) (v &&& 0x00FFFFFF) }
  else if blk = 7 then
    if field v 0 2 = 3 then s else s.modBank ((o - 0x100) / 4) fun k => { k with ctrl := BitVec.ofNat 2 (field v 0 2) }
  else if blk = 8 then
    if o < 0x8000 then s.modCh ((o - 0x1000) / 0x100) fun c => { c with cfg := v &&& 0x3FFF }
    else s.modDq ((o - 0x8000) / 0x40) fun d =>
      if o % 0x40 = 0 then
        { d with enable := v.getLsbD 0, ackWrites := v.getLsbD 1, owner := BitVec.ofNat 6 (field v 8 6), rspBeats := BitVec.ofNat 13 (field v 16 13) }
      else { d with staleLimit := BitVec.ofNat 24 v.toNat }
  else if blk = 9 then
    if o < 0x60 then s.modLan fun x => { x with quad := x.quad.set 0 (o / 4) (v &&& 0x1FFF03) }
    else if o % 0x40 = 0 then s.modLane ((o - 0x1000) / 0x40) fun l => { l with ctrl := BitVec.ofNat 3 v.toNat }
    else if o % 0x40 = 8 then s.firWrite ((o - 0x1000) / 0x40) v
    else s.modLane ((o - 0x1000) / 0x40) fun l => { l with peaking := BitVec.ofNat 5 v.toNat }
  else if blk = 11 then s.loadMac (o / 0x8000) (o % 0x8000) v
  else if blk = 16 then
    if o < 0x400 then s.modEvt fun e => { e with route := e.route.set none ((o - 0x100) / 4) (some (routeBits v)) }
    else s.modPin ((o - 0x400) / 4) fun p =>
      { p with evLevel := v.getLsbD 0, evActive := v.getLsbD 1, evWidth := BitVec.ofNat 16 (field v 8 16) }
  else if o < 0x400 then s.modPin ((o - 0x100) / 4) fun p => p.load v
  else s.modIoc fun i => { i with declared := i.declared.set 0 ((o - 0x400) / 4) (BitVec.ofNat 3 (field v 0 3)) }

/-- Den d and its active plane take the image's content (R139, R145, R153, R159, R172, R372). -/
def State.loadDen (l t : List Byte) (d : Nat) (s : State) : State :=
  let plane := sectionOf t 1 d
  let isStatic := (leAt l 0x190 8).testBit d
  let alone := !isStatic && plane.isNone
  let s := s.writePlane d false (plane.getD []) ((sectionOf t 2 d).getD [])
  let s := s.modBdg fun b => { b with policy := b.policy.set 0 d (BitVec.ofNat 2 (byteAt l (0x160 + d))) }
  let s := s.modDen d fun n =>
    { n with
      isStatic := isStatic, active := false, activeEmpty := alone, activeId := 0, activeSrc := 0, isolated := alone
      inReset := alone, ctrl := BitVec.ofNat 32 alone.toNat, drainLimit := drainLimitOf (leAt l (0x198 + 4 * d) 4) }
  if alone then s.latchIso d else s

/-- The Sett contents: 1,024 words of 72 bits, 9 bytes each (R372; notes/assumptions/70.md); a Sett without a record holds
zero. -/
def settWords (t : List Byte) : Tab (BitVec 72) :=
  match sectionOf t 3 0 with
  | none => {}
  | some r =>
    (List.range (r.length / 9220)).foldl (fun tab i =>
      let n := leAt r (9220 * i) 4
      if n < 8448 then tab.fill 0 (1024 * n) 1024 fun w => BitVec.ofNat 72 (leAt r (9220 * i + 4 + 9 * w) 9) else tab) {}

/-- Brock-B's TCM holds its section from offset 0, and zero after it (R329, Table 15.4). -/
def State.loadTcm (s : State) (t : List Byte) : State :=
  s.modRam fun m =>
    Memory.writeN (m.filter fun c => !(decide (tcmBase 1 ≤ c.1) && decide (c.1 < tcmBase 1 + 0x80000))) (tcmBase 1) ((sectionOf t 4 0).getD [])

/-- The slot tables an image supplies, by 2k + e: in a section of its own, or by REGS pairs that name its entries or frame
register (R203, R373). -/
def slotTables (t : List Byte) : List Nat :=
  (List.range 8).filter fun i =>
    (sectionOf t 5 i).isSome || (regPairs t).any fun p => 0x600000 ≤ p.1 && p.1 < 0x700000 && vnxTable (p.1 - 0x600000) == some i

/-- A slot table the image supplies (Table 15.4). -/
def State.loadSlots (t : List Byte) (i : Nat) (s : State) : State :=
  match sectionOf t 5 i with
  | none => s
  | some r => s.modVnx fun v =>
    { v with
      frame := v.frame.set 0 i (BitVec.ofNat 32 (leAt r 0 4) &&& 0x0FFF07FF)
      slot := v.slot.fill 0 (1024 * i) 1024 fun n => BitVec.ofNat 32 (leAt r (4 + 4 * n) 4) &&& 0x00FFFFFF }

/-- A bank takes the state its image value asks for (R213). -/
def State.loadBank (b : Nat) (s : State) : State :=
  match (s.bankAt b).ctrl.toNat with
  | 0 => s.queueClear b
  | 1 => s.bankDown b .retain
  | _ => (s.bankDown b .off).wipeIdle b

/-- A MAC's queues start with the image's shares and ring registers (R284, R302). -/
def State.loadQueues (l : List Byte) (m : Nat) (s : State) : State :=
  if (s.macAt m).config = 0 then s
  else forN 32 (fun q s => s.modMacQ m q fun y =>
    { y with share := Config.macShare l m q, baseUse := y.base, sizeUse := y.size, engine := y.enable && y.ring }) s

/-- A quad's mode is not OFF, in the image or in the span link map. -/
def State.quadUsed (s : State) (q : Nat) : Bool := s.quadMode q != 0

/-- The parameters of the image's header take effect at the end of LOAD (R16, R25, R56, R66, R164, R178, R222, R227). -/
def State.loadParams (s : State) (l : List Byte) : State :=
  let per := leAt l 0x100 4
  let lap := leAt l 0x15C 4
  let s := s.modTbs fun t =>
    { t with
      period := if (t.role = 2 ∨ t.role = 3) ∧ t.timeSet then t.period else if per = 0 then 10000 else BitVec.ofNat 24 per
      doneMask := BitVec.ofNat 50 (leAt l 0x104 8) }
  let s := s.modClk fun c =>
    { c with
      opMin := BitVec.ofNat 2 (byteAt l 0x114), opStart := BitVec.ofNat 2 (byteAt l 0x115), opMax := BitVec.ofNat 2 (byteAt l 0x116)
      policy := BitVec.ofNat 64 (leAt l 0x150 8) }
  let s := s.modBdg fun b =>
    { b with
      idleMode := byteAt l 0x158 == 1, failStop := byteAt l 0x159 == 1, lapTarget := if lap = 0 then 100000 else BitVec.ofNat 24 lap
      leakAt := s.now }
  let s := s.modMem fun m => { m with interleave := byteAt l 0x258 == 1, ch := m.ch.mapVals {} fun c => { c with leakAt := s.now } }
  let s := s.modBrw fun w => { w with leakAt := s.now, settLeakAt := s.now }
  forN 32 (fun b s => s.modBank b fun k => { k with ctrl := if (leAt l 0x25C 4).testBit b then 0 else 2 }) s

/-- LOAD ends: the image is written into the device, and VERIFY begins (R85, R373). An encrypted image without a key
cannot be written; VERIFY rejects it (R364). -/
def State.configure (s : State) (l : List Byte) : State :=
  let s := if s.readable l then
      let t := s.plainText l (lastEnd l)
      let s := s.imageDefaults.loadParams l
      let s := forN 48 (State.loadDen l t) s
      let s := s.modFab fun f => { f with sett := settWords t }
      let s := (s.loadTcm t).modClk fun c => { c with fabPlls := Config.fabPllsOf t, fabUser := Config.fabPllsUser t }
      let s := s.modIoc fun i => { i with pins := (List.range 784).map (Config.pinOf t) }
      let s := s.modFab fun f => { f with clocking := Config.clocking t }
      let s := forN 8 (State.loadSlots t) s
      let s := (regPairs t).foldl State.loadReg s
      let s := s.modIoc fun i =>
        { i with used := BitVec.ofNat 16 ((List.range 16).foldl (fun a b => if i.declared.getD b 0 != 0 then a + 2 ^ b else a) 0) }
      let s := (forN 32 State.loadBank s).updLaps
      let s := forN 24 (State.loadQueues l) s
      let s := s.modLan fun x =>
        { x with powered := BitVec.ofNat 24 ((List.range 24).foldl (fun a q => if s.quadUsed q && x.powered.getLsbD q then a + 2 ^ q else a) 0) }
      let s := forN 96 (fun n s => if s.laneUsed n then s else s.modLane n fun l => { l with trained := false, training := none, retryAt := none }) s
      forN 24 (fun q s => if s.quadUsed q && !s.lan.powered.getLsbD q then s.requestStep (.quad q) else s) s
    else s
  (s.setMode .verify).modPwr fun p =>
    { p with candidate := some l, checksOk := false, loadTime := BitVec.ofNat 32 ((s.now - p.loadAt) / 1000) }

/-! ## VERIFY -/

/-- The voltage of a VCCO code, in mV (Table 4.10). -/
def vccoMv (c : BitVec 3) : Nat :=
  match c.toNat with
  | 1 => 1000 | 2 => 1200 | 3 => 1350 | 4 => 1500 | 5 => 1800 | 6 => 2500 | 7 => 3300 | _ => 0

/-- A measured voltage lies within 10 % of the declared one (R130). -/
def vccoWithin (declared measured : BitVec 3) : Bool :=
  decide (9 * vccoMv declared ≤ 10 * vccoMv measured ∧ 10 * vccoMv measured ≤ 11 * vccoMv declared)

/-- The measured VCCO of each bank is compared with the declared one (R130). -/
def State.checkVcco (vcco : List (BitVec 3)) (b : Nat) (s : State) : State :=
  let s := s.modIoc fun i => { i with measured := i.measured.set 0 b (vcco.getD b 0) }
  let d := s.ioc.declared.getD b 0
  if d != 0 && !vccoWithin d (vcco.getD b 0) then
    (s.modIoc fun i => { i with mismatch := setBit i.mismatch b true }).raise .iocVccoMismatch (ofFields [(0, b)])
  else s

/-- The image of the slot is accepted (R87, R130, R131, R382, Table 7.7). -/
def State.accept (s : State) (l t : List Byte) (vcco : List (BitVec 3)) : State :=
  let safe := match sectionOf t 6 0 with
    | none => List.replicate 784 0
    | some r => r.map fun b => BitVec.ofNat 3 (field b 0 3)
  let per := if leAt l 0x100 4 = 0 then 10000 else leAt l 0x100 4
  let s := s.modPwr fun p =>
    { p with img := some (s.imgParams l safe), slot := BitVec.ofNat 2 p.trySlot, candidate := none, checksOk := true, trained := 0 }
  let s := s.modIoc fun i => { i with safe := some safe }
  let s := s.modVnx fun v => { v with validated := (slotTables t).foldl (fun x i => setBit x i true) v.validated }
  let s := forN 16 (State.checkVcco vcco) s
  s.raiseIf (s.follower && per != s.tbs.period.toNat) .tbsPeriodMismatch (BitVec.ofNat 32 s.tbs.period.toNat)

/-- VERIFY's checks have been made. -/
def State.verify (s : State) (readbackOk : Bool) (vcco : List (BitVec 3)) : State :=
  match s.pwr.candidate with
  | none => s
  | some l =>
    let t := s.plainText l (lastEnd l)
    let r := s.verifyReason l readbackOk (slotTables t)
    if r = 0 then s.accept l t vcco else s.reject r

/-- VERIFY may end (R87): OP_START is reached, training has finished, and ALIGNED is 1. -/
def State.verified (s : State) : Bool :=
  s.pwr.checksOk && s.clk.phase == .idle && s.clk.pending.isNone && s.clk.op.toNat == s.opClamp s.clk.opStart.toNat &&
    s.populated.all (s.pwr.trained.getLsbD ·) && s.tbs.aligned

/-! ## The system section in LOCK (R254) -/

/-- The span configuration is known: AVSBus goes on, SPAN quads power up, and with no span link election closes. -/
def State.lockGo (s : State) : State :=
  let s := s.modPwr fun p => { p with sysTaken := true }
  let quads := ((List.range 8).filter fun k => (s.linkAt k).configured).map fun k => field (s.linkAt k).cfg 0 5
  let s := forN 24 (fun q s => if quads.contains q then s.requestStep (.quad q) else s) s
  if s.hasSpan then s else s.closeElection

/-- No slot has a good section: the defaults of R254. -/
def State.sysDefaults (s : State) : State :=
  let s := s.modPwr fun p => { p with sysSection := none }
  let s := s.modTbs fun t => { t with imgRole := 2, devNum := 0 }
  let s := s.modClk fun c => { c with avs := .write, volt := BitVec.ofNat 16 (s.opVolt 0), avsAt := s.now }
  s.lockGo

/-- A link of the map uses a quad that R255 allows it, and a width of Table 10.5; any other entry configures no link (DESIGN
CHOICE, notes/assumptions/143.md). -/
def linkCfgOk (k v : Nat) : Bool :=
  let q := v % 32
  let lo := if k < 4 then 3 * k else 12 + 3 * (k - 4)
  decide (lo ≤ q ∧ q ≤ lo + 2) && v / 32 % 4 != 3

/-- A good section is used (Table 15.3). -/
def State.takeSystem (s : State) (l : List Byte) : State :=
  let s := s.modPwr fun p => { p with sysSection := some (l.take 0x800) }
  let s := s.modTbs fun t => { t with devNum := BitVec.ofNat 8 (byteAt l 0), imgRole := BitVec.ofNat 2 (byteAt l 1) }
  let s := s.modClk fun c =>
    { c with
      watchSpan := (byteAt l 2).testBit 0, railSel := BitVec.ofNat 4 (byteAt l 0x144), rate := BitVec.ofNat 6 (byteAt l 0x145)
      div := BitVec.ofNat 4 (byteAt l 0x146), avs := .rate, avsAt := s.now }
  let s := s.modSpn fun p =>
    { p with
      lead := BitVec.ofNat 24 (leAt l 4 4), interval := if leAt l 0x140 2 = 0 then 1000 else BitVec.ofNat 16 (leAt l 0x140 2)
      route := p.route.fill 15 0 256 fun n => BitVec.ofNat 4 (byteAt l (0x40 + n)) }
  let s := forN 8 (fun k s => s.modLink k fun x =>
    { x with cfg := setBit (BitVec.ofNat 9 (leAt l (8 + 2 * k) 2)) 8 ((leAt l (8 + 2 * k) 2).testBit 8 && linkCfgOk k (leAt l (8 + 2 * k) 2))
             asym := BitVec.ofNat 32 (leAt l (0x18 + 4 * k) 4) }) s
  s.lockGo

/-- The next VALID slot from i on, whose section is read; with none, the defaults. -/
def State.seekSystem (s : State) (i : Nat) : State :=
  match (List.range s.slotCount).find? fun j => decide (i ≤ j) && (s.slotAt j).1 with
  | some j => s.modPwr fun p => { p with sysSlot := j }
  | none => s.sysDefaults

/-- REFCLK is good in LOCK, and the section has not been settled yet. -/
def State.lockReads (s : State) : Bool := s.mode == .lock && s.clk.good.getLsbD 0 && !s.pwr.sysTaken

/-! ## Commands -/

/-- The good copy of the slot table, and whether it is the backup (R84). -/
def goodTable (primary backup : List Byte) : Option (SlotTable × Bool) :=
  if slotTableOk primary then some (readSlotTable primary, false)
  else if slotTableOk backup then some (readSlotTable backup, true) else none

/-- The flash's SFDP table advertises octal DDR: behind its signature, one of its parameter headers is that of JESD251, ID
0xFF05 (R83; the format is that of JESD216, outside the manual: PRESUMED, notes/assumptions/140.md). -/
def sfdpOctal (l : List Byte) : Bool :=
  leAt l 0 4 == 0x50444653 &&
    (List.range (leAt l 6 1 + 1)).any fun i => leAt l (8 + 8 * i) 1 == 0x05 && leAt l (15 + 8 * i) 1 == 0xFF

/-- How LOAD reads the flash (R83). -/
def flashModeOf (sfdp : List Byte) : FlashMode := if sfdpOctal sfdp then .octal else .quad

/-- SLOT_TABLE_READ, in LOCK (R254) and in LOAD, where the SFDP table is read before it (R83, R84). -/
def execSlotTableRead (sfdp primary backup : List Byte) (s : State) : Host.Outcome State Fault Refusal :=
  .next (if s.pwr.slotTable.isSome ∨ s.pwr.resetPending then s
    else
      let s := if s.mode = .load then s.modPwr fun p => { p with flash := flashModeOf sfdp } else s
      match goodTable primary backup with
      | some (t, b) =>
        if s.lockReads then (s.modPwr fun p => { p with slotTable := some t }).seekSystem 0
        else if s.mode = .load then
          State.seekSlot 5 0 (s.modPwr fun p => { p with slotTable := some t, backup := b })
        else s
      | none =>
        if s.lockReads then s.sysDefaults
        else if s.mode = .load then ((s.modPwr fun p => { p with backup := true }).raise .cfgNoSlotTable 0).enterStop 2
        else s)

/-- SYSTEM_SECTION_READ (R254): `bytes` are image bytes 0x800 to 0xFFF of the slot. -/
def execSystemSectionRead (bytes : List Byte) (s : State) : Host.Outcome State Fault Refusal :=
  .next (if s.lockReads && s.pwr.slotTable.isSome then
      if sysOk bytes then s.takeSystem bytes else s.seekSystem (s.pwr.sysSlot + 1)
    else s)

/-- SLOT_READ_COMPLETE (R85): the LOAD checks of Table 3.5. -/
def execSlotReadComplete (flashOk : Bool) (image : List Byte) (s : State) : Host.Outcome State Fault Refusal :=
  .next (if s.mode = .load ∧ s.pwr.slotTable.isSome ∧ !s.pwr.resetPending then
      let r := s.loadReason flashOk (s.slotAt s.pwr.trySlot).2.toNat image
      if r = 0 then s.configure image else s.reject r
    else s)

/-- VERIFY_CHECKS_DONE (R85, R87, R130): `vcco` are the codes measured on the 16 banks. -/
def execVerifyChecksDone (readbackOk : Bool) (vcco : List (BitVec 3)) (s : State) : Host.Outcome State Fault Refusal :=
  .next (if s.mode = .verify ∧ !s.pwr.resetPending then s.verify readbackOk vcco else s)

/-- DDR_TRAINING_DONE (R87, R228). -/
def execDdrTrainingDone (ch : Fin 4) (ok : Bool) (s : State) : Host.Outcome State Fault Refusal :=
  .next (if s.mode = .verify && s.pwr.checksOk && !s.pwr.resetPending && s.populated.contains ch.val && !s.pwr.trained.getLsbD ch then
      let s := s.modPwr fun p => { p with trained := setBit p.trained ch true }
      (if ok then s.modCh ch fun c => { c with enabled := true, patrolAt := s.now, patrolLast := s.now }
        else (s.modCh ch fun c => { c with enabled := false }).raise .memTrainFail (ofFields [(0, ch.val)])).portServe 64 ch
    else s)

/-- VERIFY_END (R87). -/
def execVerifyEnd (s : State) : Host.Outcome State Fault Refusal :=
  .next (if s.mode = .verify ∧ !s.pwr.resetPending ∧ s.verified then s.enterRelease false else s)

end Sys2Proof.Machine
end

