-- ==== Sys2Proof/Machine/Csr.lean ====
section
/-! DEFINITION. The CSR space as one map (R6 to R11, R15): reads, the words they latch, what they clear, writes, and the
commands of this family. -/

namespace Sys2Proof.Machine

/-- The value a register holds now, for the reading master; none where nothing is assigned (R8). -/
def State.csrRaw (s : State) (m : MasterId) (a : Nat) : Option Word :=
  let o := a % 0x100000
  match a / 0x100000 with
  | 0 => s.tbsRead m o
  | 1 => s.clkRead o
  | 2 => s.pwrRead o
  | 3 => s.cfgRead o
  | 4 => s.denRead o
  | 5 => s.bdgRead o
  | 6 => s.vnxRead o
  | 7 => s.brwRead o
  | 8 => s.memRead o
  | 9 => s.lanRead o
  | 10 => s.spnRead o
  | 11 => s.macRead o
  | 12 => s.hstRead o
  | 13 => s.brkRead o
  | 14 => s.prtRead o
  | 15 => s.fusRead o
  | 16 => s.evtRead o
  | 17 => s.iocRead o
  | _ => none

/-- The registers a read of this one latches for the reader (R15, R217, R301, R389). -/
def latchOf (a : Nat) : List Nat :=
  let o := a % 0x100000
  let hi (c : Bool) : List Nat := if c then [a + 4] else []
  match a / 0x100000 with
  | 0 => if o = 0x10 then [a + 4, a + 8] else hi (o == 0x20 || o == 0x2C)
  | 1 => hi (o == 0x90)
  | 2 => hi (o == 0x44)
  | 7 => hi (decide (0x2000 ≤ o ∧ o < 0x2200) && o % 8 == 0)
  | 8 => hi (decide (0x8000 ≤ o ∧ o < 0x9000) && (o % 0x40 == 0x10 || o % 0x40 == 0x18))
  | 11 =>
    let b := o % 0x8000
    hi (decide (o / 0x8000 < 24) && decide (0x2000 ≤ b ∧ b < 0x2400) && decide (b % 0x100 < 0x70) && b % 8 == 0)
  | 16 => if 0x10000 ≤ o ∧ o < 0x14000 ∧ o % 16 = 0 then [a + 4, a + 8, a + 12] else hi (o == 4)
  | 17 => hi (decide (0x200 ≤ o ∧ o < 0x280) && o % 8 == 0)
  | _ => []

/-- A register that reads as latched. -/
def latched (a : Nat) : Bool :=
  (decide (4 ≤ a) && (latchOf (a - 4)).contains a) || (decide (8 ≤ a) && (latchOf (a - 8)).contains a) ||
    (decide (12 ≤ a) && (latchOf (a - 12)).contains a)

/-- What a read of an RC field clears (Table 0.5). -/
def State.csrClear (s : State) (m : MasterId) (a : Nat) : State :=
  let o := a % 0x100000
  match a / 0x100000 with
  | 0 => s.tbsClear m o
  | 1 => s.clkClear o
  | 2 => s.pwrClear o
  | 4 => s.denClear o
  | 5 => s.bdgClear o
  | 7 => s.brwClear o
  | 8 => s.memClear o
  | 9 => s.lanClear o
  | 10 => s.spnClear o
  | 11 => s.macClear o
  | 12 => s.hstClear o
  | 13 => s.brkClear o
  | 14 => s.prtClear o
  | 16 => s.evtClear o
  | 17 => if o = 0xC then s.modIoc fun i => { i with stampNew := 0, overwrite := 0 } else s
  | _ => s

/-- A 32-bit read by master m: the value, what it latches, and what it clears; an unaligned or unassigned address
completes with DECODE and no data (R6, R8). -/
def State.csrRead (s : State) (m : MasterId) (a : Nat) : State × Err × Word :=
  match s.csrRaw m a with
  | none => (s, .decode, 0)
  | some v =>
    if a % 4 ≠ 0 then (s, .decode, 0)
    else
      let v := if latched a then s.latch.getD (64 * a + m.toNat) 0 else v
      let s := if (latchOf a).isEmpty then s else s.latchWords m ((latchOf a).map fun b => (b, (s.csrRaw m b).getD 0))
      (s.csrClear m a, .ok, v)

/-- The effect of a write by field type (Table 0.5), and its answer; none where nothing is assigned. -/
def State.csrPut (s : State) (m : MasterId) (a : Nat) (v : Word) : Option (State × Err) :=
  let o := a % 0x100000
  let ok (x : Option State) : Option (State × Err) := x.map fun s => (s, Err.ok)
  match a / 0x100000 with
  | 0 => s.tbsWrite m o v
  | 1 => ok (s.clkWrite o v)
  | 2 => ok (s.pwrWrite o v)
  | 3 => ok (s.cfgWrite o v)
  | 4 => ok (s.denWrite o v)
  | 5 => ok (s.bdgWrite o v)
  | 6 => s.vnxWrite o v
  | 7 => ok (s.brwWrite o v)
  | 8 => ok (s.memWrite m o v)
  | 9 => ok (s.lanWrite o v)
  | 10 => ok (s.spnWrite o v)
  | 11 => ok (s.macWrite o v)
  | 12 => ok (s.hstWrite o v)
  | 13 => s.brkWrite o v
  | 14 => ok (s.prtWrite o v)
  | 15 => ok (s.fusWrite o v)
  | 16 => ok (s.evtWrite m o v)
  | 17 => ok (s.iocWrite o v)
  | _ => none

/-- A write of n bytes by master m: anything but an aligned 32-bit write of an assigned register completes with DECODE and
writes nothing (R6, R8). -/
def State.csrWrite (s : State) (m : MasterId) (a n : Nat) (v : Word) : State × Err :=
  if n ≠ 4 ∨ a % 4 ≠ 0 then (s, .decode) else (s.csrPut m a v).getD (s, .decode)

/-- An access that leads to no CSR block is answered DECODE where it enters the network (R186, R347). -/
def State.csrAccess (s : State) (m : MasterId) (addr : Addr) (wr : Bool) (k : State → State) : State :=
  if 0x1200000 ≤ addr.toNat then s.whenOn fun s => s.answer m .decode 0 else s.access m addr wr k

/-! ## Commands -/

/-- CSR_WRITE (R6 to R9): `len` is the length in bytes, minus 1. -/
def execCsrWrite (m : MasterId) (addr : Addr) (len : BitVec 12) (val : Word) (s : State) : Host.Outcome State Fault Refusal :=
  .next (s.csrAccess m addr true fun s =>
    let r := s.csrWrite m addr.toNat (len.toNat + 1) val
    r.1.answer m r.2 0)

/-- RC_READ (R9, R10). -/
def execRcRead (m : MasterId) (addr : Addr) (s : State) : Host.Outcome State Fault Refusal :=
  .next (s.csrAccess m addr false fun s =>
    let r := s.csrRead m addr.toNat
    r.1.answer m r.2.1 r.2.2)

/-- LATCHED_LO_READ (R15). -/
def execLatchedLoRead (m : MasterId) (addr : Addr) (s : State) : Host.Outcome State Fault Refusal :=
  .next (s.csrAccess m addr false fun s =>
    let r := s.csrRead m addr.toNat
    r.1.answer m r.2.1 r.2.2)

end Sys2Proof.Machine
end

