-- ==== Sys2Proof/Machine/Monitor.lean ====
section
/-! DEFINITION. The network accesses of the resident monitor (R321): a CSR or a memory of this device is read and written within
the command. -/

namespace Sys2Proof.Machine

/-- The 4-byte words of an access to CSR space (R6), as long as they are answered OK. -/
def State.csrWords (s : State) (n : Nat) (k : State → Nat → State × Err × List Byte) : State × Err × List Byte :=
  (List.range n).foldl (fun r i => if r.2.1 ≠ .ok then r else let x := k r.1 i; (x.1, x.2.1, r.2.2 ++ x.2.2)) (s, .ok, [])

/-- The monitor, as master 0, reads n bytes at a local address of a device (Table 12.8). What another device, a den, a queue or
the host answers, and an error on the way, is `got`. A CSR is read in aligned words of 4 bytes (DESIGN CHOICE,
notes/assumptions/145.md). -/
def State.monitorRead (s : State) (dev : Byte) (a : Addr) (n : Nat) (got : Err × List Byte) : State × Err × List Byte :=
  if dev ≠ s.tbs.devNum then (s, got.1, got.2.take n)
  else match s.place a with
    | some .csr =>
      if a.toNat % 4 ≠ 0 ∨ n % 4 ≠ 0 then (s, .decode, [])
      else s.csrWords (n / 4) fun s i => let x := s.csrRead 0 (a.toNat + 4 * i); (x.1, x.2.1, leBytes x.2.2.toNat 4)
    | _ =>
      let r := s.engineRead 0 a n got
      (s.noteDenied 0 a false, r.1, r.2.take n)

/-- The monitor writes (Table 12.8). -/
def State.monitorWrite (s : State) (dev : Byte) (a : Addr) (l : List Byte) (got : Err) : State × Err :=
  if dev ≠ s.tbs.devNum then (s, got)
  else match s.place a with
    | some .csr =>
      if a.toNat % 4 ≠ 0 ∨ l.length % 4 ≠ 0 then (s, .decode)
      else
        let r := s.csrWords (l.length / 4) fun s i =>
          let b := BitVec.ofNat 48 (a.toNat + 4 * i)
          if protectedWrite 0 b then (s.deny 0 6 true false, .accessDenied, [])
          else
            let x := s.csrWrite 0 b.toNat 4 (BitVec.ofNat 32 (leNat (slice l (4 * i) 4)))
            (x.1, x.2, [])
        (r.1, r.2.1)
    | _ =>
      let e := s.engineAnswer 0 a l.length got
      (if e = .ok then (s.engineWrite a l).getD s else s.noteDenied 0 a true, e)

/-! ## Commands -/

/-- INFO (Table 12.8). -/
def execInfo (s : State) : Host.Outcome State Fault Refusal :=
  .next (s.monitor 2 (s.hst.reqLen == 0) fun s =>
    s.mbReply 0 (leBytes Config.firmwareVersion.toNat 4 ++ leBytes ((s.pwrRead 0).getD 0).toNat 4 ++ leBytes ((s.pwrRead 0x14).getD 0).toNat 4 ++
      (List.range 4).flatMap fun i => leBytes (s.fusWord i).toNat 4))

/-- READ (Table 12.8). -/
def execRead (err : Err) (data : List Byte) (s : State) : Host.Outcome State Fault Refusal :=
  let n := s.hst.reqNat 16 4
  .next (s.monitor 0x10 (s.hst.reqLen == 12 && decide (n ≤ 4080)) fun s =>
    let r := s.monitorRead (BitVec.ofNat 8 (s.hst.reqNat 14 1)) (BitVec.ofNat 48 (s.hst.reqNat 8 6)) n (err, data)
    r.1.mbReply (netStatus r.2.1) (if r.2.1 = .ok then r.2.2 else []))

/-- WRITE (Table 12.8). -/
def execWrite (err : Err) (s : State) : Host.Outcome State Fault Refusal :=
  .next (s.monitor 0x11 (decide (8 ≤ s.hst.reqLen)) fun s =>
    let r := s.monitorWrite (BitVec.ofNat 8 (s.hst.reqNat 14 1)) (BitVec.ofNat 48 (s.hst.reqNat 8 6)) (s.hst.payload.drop 8) err
    r.1.mbReply (netStatus r.2) [])

end Sys2Proof.Machine
end

