-- ==== Sys2Proof/Machine/Target.lean ====
section
/-! DEFINITION. Where packets arrive (chapter 7, R350 to R355): a request at its target port, a response at its master,
and the commands of this family. -/

namespace Sys2Proof

/-- What a request reads and writes, as the access tables see it (R350). -/
def Hdr.reads (h : Hdr) : Bool := h.isRead || h.isAtomic || (h.isPush && h.addr.getLsbD 44)
def Hdr.writes (h : Hdr) : Bool := h.isWrite || h.isAtomic || (h.isPush && !h.addr.getLsbD 44)

/-! ## Parity (R187, R188) -/

/-- The even parity bit of each byte of a flit. -/
def flitParity (b : BitVec 512) : BitVec 64 :=
  (List.range 64).foldl (fun x i => Machine.setBit x i (Machine.popCount (b.extractLsb' (8 * i) 8).toNat 8 % 2 == 1)) 0

/-- All that flips in flit i. -/
def flipsOf (l : FlitFlips) (i : Nat) : BitVec 576 := l.foldl (fun x f => if f.1 = i then x ^^^ f.2 else x) 0

/-- A flit as it is received. -/
def flitGot (b : BitVec 512) (f : BitVec 576) : BitVec 512 := b ^^^ f.extractLsb' 0 512

/-- The bytes of a received flit whose parity is wrong. -/
def badBytes (b : BitVec 512) (f : BitVec 576) : BitVec 64 := flitParity (flitGot b f) ^^^ flitParity b ^^^ f.extractLsb' 512 64

/-- What a unit receives: the packet, or the requester that a good copy in a bad header names. -/
inductive Received where
  | good (p : Packet)
  | badData
  /-- SRC_MASTER, TAG and SRC_DEV. -/
  | badHeader (src : MasterId) (tag : BitVec 6) (dev : Byte)
  | lost
deriving DecidableEq, Repr

/-- A packet's flits are received (R187, R188). The fields of SRC_MASTER, TAG and SRC_DEV lie in bytes 0 to 4 of the header,
and their copy in bytes 13 to 15 (Table 7.3). -/
def Packet.receive (p : Packet) (flips : FlitFlips) : Received :=
  if flips.isEmpty then .good p
  else match packetFlits (Machine.packHdr p.hdr) .req false p.data p.dataFlits with
    | [] => .good p
    | h :: r =>
      let bad := badBytes h.bits (flipsOf flips 0)
      let got := (flitGot h.bits (flipsOf flips 0)).extractLsb' 0 128
      if bad ≠ 0 then
        if bad &&& 0x1F = 0 then let x := Machine.unpackHdr got; .badHeader x.src x.tag x.srcDev
        else if bad &&& 0xE000 = 0 then .badHeader (got.extractLsb' 108 6) (got.extractLsb' 114 6) (got.extractLsb' 120 8)
        else .lost
      else if r.zipIdx.any fun f => badBytes f.1.bits (flipsOf flips (f.2 + 1)) != 0 then .badData
      else
        .good { hdr := Machine.unpackHdr got
                data := (r.zipIdx.flatMap fun f => Flit.bytes { f.1 with bits := flitGot f.1.bits (flipsOf flips (f.2 + 1)) }).take p.data.length }

/-- The same packet, but for the requester a copy names. -/
def Packet.renamed (p : Packet) (src : MasterId) (tag : BitVec 6) (dev : Byte) : Packet :=
  { p with hdr := { p.hdr with src := src, tag := tag, srcDev := dev } }

end Sys2Proof

namespace Sys2Proof.Machine

/-! ## Requests -/

/-- The target a request is checked and counted against; 31 where no target covers the address (notes/assumptions/71.md). -/
def State.reqTarget (s : State) (h : Hdr) : Nat :=
  if h.isPush then 13 + regionOf s.ddrBounds (pushOff h / 2 ^ 30)
  else ((s.place h.addr).bind (s.target h.addr)).getD 31

/-- A unit finds a parity error and answers POISON (R187, R188). -/
def State.poisoned (s : State) (p : Packet) : State :=
  (s.raise .vnxPoison (ofFields [(0, p.hdr.src.toNat), (8, p.hdr.tag.toNat)])).respond p .poison []

/-- A request for a CSR block (R6, R8): 4 bytes, aligned, READ or WRITE. -/
def State.csrRequest (s : State) (p : Packet) : State :=
  let m := s.acting p.hdr
  let a := p.hdr.addr.toNat
  if p.hdr.isRead && p.hdr.bytes == 4 then
    let r := s.csrRead m a
    r.1.respond p r.2.1 (leBytes r.2.2.toNat 4)
  else if p.hdr.isWrite then
    let r := s.csrWrite m a p.hdr.bytes (BitVec.ofNat 32 (leNat p.data))
    r.1.respond p r.2 []
  else s.respond p .decode []

/-- A request for a pair's TCM (R221): a parity error found by a read gives POISON. -/
def State.tcmRequest (s : State) (p : Packet) (a : Nat) (bad : Bool) : State :=
  let old := s.ram.readN a p.hdr.bytes
  let put (l : List Byte) (s : State) : State := s.modRam fun r => r.writeN a l
  if p.hdr.isWrite then (put (p.data.take p.hdr.bytes) s).respond p .ok []
  else if bad then s.respond p .poison []
  else if p.hdr.isRead then s.respond p .ok old
  else
    let v := leNat p.data
    (put (leBytes (if p.hdr.opc == opAdd then leNat old + v else v) 8) s).respond p .ok []

/-- A request waits at a unit that serves it in a later step. -/
def State.waitAtTarget (s : State) (q : InFlight) : State := s.modVnx fun v => { v with atTarget := v.atTarget ++ [q] }

/-- The unit a request is for takes it (Table 14.1). -/
def State.serve (s : State) (q : InFlight) (tcmBad : Bool) : State :=
  let p := q.pkt
  let h := p.hdr
  if h.isPush then s.waitAtTarget q
  else match s.place h.addr with
    | none => s.respond p .decode []
    | some .csr => s.csrRequest p
    | some (.burrow o) => s.burrowArrive q o
    | some (.tcm k o) => s.tcmRequest p (tcmBase k + o) tcmBad
    | some (.dq _ o) => if windowForm h o then s.waitAtTarget q else s.respond p .decode []
    | some (.macq _) => if (macForm h).isSome then s.waitAtTarget q else s.respond p .decode []
    | some _ => s.waitAtTarget q

/-- The target port's checks (R186, R350, R352, R354), and then the request has its effect. A request that an entry's DST
brought to a unit which does not hold its address completes with DECODE (DESIGN CHOICE, notes/assumptions/141.md). -/
def State.arrive (s : State) (q : InFlight) (tcmBad : Bool) : State :=
  let p := q.pkt
  let h := p.hdr
  let m := s.acting h
  let t := s.reqTarget h
  if q.remote && fuseBit s.fus.latched 4278 then (s.deny m t h.writes true).respond p .accessDenied []
  else if p.malformed || s.unitOf h != some q.dst then s.respond p .decode []
  else if !h.isPush && ((h.isWrite && protectedWrite m h.addr) || s.denied m t h.reads h.writes) then
    (s.deny m t h.writes q.remote).respond p .accessDenied []
  else s.serve q tcmBad

/-- A request is received at its target port: parity comes first (R187, R188). -/
def State.requestTaken (s : State) (q : InFlight) (flips : FlitFlips) (tcmBad : Bool) : State :=
  match q.pkt.receive flips with
  | .good p => s.arrive { q with pkt := p } tcmBad
  | .badData => s.poisoned q.pkt
  | .badHeader m t d => s.poisoned (q.pkt.renamed m t d)
  | .lost => s.raise .vnxHdrLost 0

/-! ## Responses -/

/-- A response reaches Brock pair k (R326, R333): one the port sinks is discarded; a running or stepped pair goes on. That of a
fed access waits for FEED_COMPLETE. -/
def State.coreTakes (s : State) (k : Nat) (tag : BitVec 6) (err : Err) (data : List Byte) : State :=
  let x := s.pairAt k
  if x.sinkTags.getLsbD tag.toNat then s.modPair k fun x => { x with sinkTags := setBit x.sinkTags tag.toNat false }
  else match x.wait with
    | none => s
    | some w =>
      if w.tag ≠ tag then s
      else if w.fed then s.modPair k fun x => { x with fedAnswer := some (err, leNat data) }
      else s.coreDone k err (leNat data)

/-- The master takes its response, and the tag is free (R200); a den gate discards one that R152 cuts off. The host endpoint takes its
answers up in HOST_INBOUND_ANSWER. -/
def State.masterTakes (s : State) (p : Packet) (err : Err) (data : List Byte) : State :=
  let m := p.hdr.src
  let s := s.markTag m p.hdr.tag false
  let word := BitVec.ofNat 32 (leNat (data.take 4))
  if 16 ≤ m.toNat then
    let drop := (s.denAt (m.toNat - 16)).dropTags.getLsbD p.hdr.tag.toNat
    (if drop then s else s.answer m err word).denTakes (m.toNat - 16) p.hdr.tag
  else
    let s := s.answer m err word
    if m.toNat < 2 then s.coreTakes m.toNat p.hdr.tag err data
    else if m = 3 then s.modHst fun h => { h with answers := h.answers ++ [(p.hdr.tag, err, data)] }
    else s

/-- A response arrives damaged: it is delivered as POISON (R187, R188). -/
def State.responseBad (s : State) (p : Packet) : State :=
  (s.raise .vnxPoison (ofFields [(0, p.hdr.src.toNat), (8, p.hdr.tag.toNat)])).masterTakes p .poison []

/-- A response is received at its master's port. Each request receives one response: where its tag is not outstanding, the
response is discarded (R200, R202). -/
def State.responseTaken (s : State) (q : InFlight) (flips : FlitFlips) : State :=
  let give (p : Packet) (f : Packet → State) : State := if s.tagBusy p.hdr.src p.hdr.tag then f p else s
  match q.pkt.receive flips with
  | .good p => give p fun p => s.masterTakes p (errOf p.hdr.err) p.data
  | .badData => give q.pkt s.responseBad
  | .badHeader m t d => give (q.pkt.renamed m t d) s.responseBad
  | .lost => s.raise .vnxHdrLost 0

/-- The port queue of a MEM port is full for a READ or WRITE of the DDR range: the port back-pressures (R235). -/
def State.portFull (s : State) (q : InFlight) : Bool :=
  match s.place q.pkt.hdr.addr with
  | some (.ddr o) =>
    !q.pkt.hdr.isPush && decide (64 ≤ (s.chAt (s.ddrLoc o).1).portQ.length +
      (s.vnx.atTarget.filter fun x => x.dst == q.dst && !x.pkt.hdr.isPush && match s.place x.pkt.hdr.addr with | some (.ddr _) => true | _ => false).length)
  | _ => false

/-! ## Commands -/

/-- NET_REQUEST_TARGET (R184, R186 to R188, R350): `flips` and `tcmBad` are what parity finds at the port, and in a TCM. -/
def execNetRequestTarget (p : Packet) (remote : Bool) (flips : FlitFlips) (tcmBad : Bool) (s : State) :
    Host.Outcome State Fault Refusal :=
  .next (s.whenOn fun s =>
    if p.hdr.opc = opRsp ∨ p.hdr.dstDev ≠ s.tbs.devNum then s
    else s.takePort (fun q => samePacket q.pkt p && q.remote == remote) fun q s =>
      if s.portFull q then s else (s.takeNet q).requestTaken q flips tcmBad)

/-- NET_RESPONSE_DELIVER (R187, R188, R200). -/
def execNetResponseDeliver (p : Packet) (flips : FlitFlips) (s : State) : Host.Outcome State Fault Refusal :=
  .next (s.whenOn fun s =>
    if p.hdr.opc ≠ opRsp ∨ p.hdr.dstDev ≠ s.tbs.devNum then s
    else s.takePort (fun q => samePacket q.pkt p) fun q s => (s.takeNet q).responseTaken q flips)

end Sys2Proof.Machine
end

