-- ==== Sys2Proof/Machine/Dispatch.lean ====
section
/-! DEFINITION. One arm per command of the operation table. -/

namespace Sys2Proof.Machine

def exec (i : Instr) (s : State) : Host.Outcome State Fault Refusal :=
  match i with
  | .csrWrite m addr len val => Sys2Proof.Machine.execCsrWrite m addr len val s
  | .rcRead m addr => Sys2Proof.Machine.execRcRead m addr s
  | .latchedLoRead m addr => Sys2Proof.Machine.execLatchedLoRead m addr s
  | .tickEdge => Sys2Proof.Machine.execTickEdge s
  | .tickDone src => Sys2Proof.Machine.execTickDone src s
  | .tbsDoneBrkb m val => Sys2Proof.Machine.execTbsDoneBrkb m val s
  | .electionClose => Sys2Proof.Machine.execElectionClose s
  | .tbsNoMasterRepeat => Sys2Proof.Machine.execTbsNoMasterRepeat s
  | .actLockRead m => Sys2Proof.Machine.execActLockRead m s
  | .actLockTimeout => Sys2Proof.Machine.execActLockTimeout s
  | .actStageWrite m w val => Sys2Proof.Machine.execActStageWrite m w val s
  | .arm m => Sys2Proof.Machine.execArm m s
  | .cancel m index gen => Sys2Proof.Machine.execCancel m index gen s
  | .query m index => Sys2Proof.Machine.execQuery m index s
  | .actCmdRelease m => Sys2Proof.Machine.execActCmdRelease m s
  | .trigAction index => Sys2Proof.Machine.execTrigAction index s
  | .trigPulseEnd pin => Sys2Proof.Machine.execTrigPulseEnd pin s
  | .eventAction index => Sys2Proof.Machine.execEventAction index s
  | .tbsHoldWrite m val => Sys2Proof.Machine.execTbsHoldWrite m val s
  | .heldHoldRelease => Sys2Proof.Machine.execHeldHoldRelease s
  | .holdover => Sys2Proof.Machine.execHoldover s
  | .syncEdge => Sys2Proof.Machine.execSyncEdge s
  | .owlAonWindow count => Sys2Proof.Machine.execOwlAonWindow count s
  | .owlRefWindow src count => Sys2Proof.Machine.execOwlRefWindow src count s
  | .owlMissingEdge src => Sys2Proof.Machine.execOwlMissingEdge src s
  | .pllLock src => Sys2Proof.Machine.execPllLock src s
  | .pllLoss src => Sys2Proof.Machine.execPllLoss src s
  | .resetRestart => Sys2Proof.Machine.execResetRestart s
  | .holdExit => Sys2Proof.Machine.execHoldExit s
  | .crossingWakeRequest d => Sys2Proof.Machine.execCrossingWakeRequest d s
  | .domainIdleRegate d => Sys2Proof.Machine.execDomainIdleRegate d s
  | .avsFrameDone ok mv => Sys2Proof.Machine.execAvsFrameDone ok mv s
  | .avsVoltagePoll => Sys2Proof.Machine.execAvsVoltagePoll s
  | .opSettleDone => Sys2Proof.Machine.execOpSettleDone s
  | .opChangeTimeout => Sys2Proof.Machine.execOpChangeTimeout s
  | .vccAonGood mv => Sys2Proof.Machine.execVccAonGood mv s
  | .vccAonLost mv => Sys2Proof.Machine.execVccAonLost mv s
  | .railGood rail mv => Sys2Proof.Machine.execRailGood rail mv s
  | .railLost rail mv => Sys2Proof.Machine.execRailLost rail mv s
  | .vccoLost bank mv => Sys2Proof.Machine.execVccoLost bank mv s
  | .vccoReturn bank mv => Sys2Proof.Machine.execVccoReturn bank mv s
  | .powerSwitchStep => Sys2Proof.Machine.execPowerSwitchStep s
  | .lockComplete => Sys2Proof.Machine.execLockComplete s
  | .systemSectionRead bytes => Sys2Proof.Machine.execSystemSectionRead bytes s
  | .slotTableRead sfdp primary backup => Sys2Proof.Machine.execSlotTableRead sfdp primary backup s
  | .slotReadComplete flashOk image => Sys2Proof.Machine.execSlotReadComplete flashOk image s
  | .verifyChecksDone readbackOk vcco => Sys2Proof.Machine.execVerifyChecksDone readbackOk vcco s
  | .ddrTrainingDone ch ok => Sys2Proof.Machine.execDdrTrainingDone ch ok s
  | .verifyEnd => Sys2Proof.Machine.execVerifyEnd s
  | .releaseGroup => Sys2Proof.Machine.execReleaseGroup s
  | .pwrModeReqWrite m val => Sys2Proof.Machine.execPwrModeReqWrite m val s
  | .wakeSource src => Sys2Proof.Machine.execWakeSource src s
  | .wakeTimerArm m val => Sys2Proof.Machine.execWakeTimerArm m val s
  | .wakeTimerExpire => Sys2Proof.Machine.execWakeTimerExpire s
  | .pwrStopReq m val => Sys2Proof.Machine.execPwrStopReq m val s
  | .stepGrant => Sys2Proof.Machine.execStepGrant s
  | .stepDepthWrite m val => Sys2Proof.Machine.execStepDepthWrite m val s
  | .powerWindow deciwatts => Sys2Proof.Machine.execPowerWindow deciwatts s
  | .pinResetAssert => Sys2Proof.Machine.execPinResetAssert s
  | .pinResetRelease => Sys2Proof.Machine.execPinResetRelease s
  | .trigInputEdge pin rising => Sys2Proof.Machine.execTrigInputEdge pin rising s
  | .trigCurrentLimit pin => Sys2Proof.Machine.execTrigCurrentLimit pin s
  | .settEccError den sbe dbe => Sys2Proof.Machine.execSettEccError den sbe dbe s
  | .denLoadStart m val => Sys2Proof.Machine.execDenLoadStart m val s
  | .denLoadAbort m val => Sys2Proof.Machine.execDenLoadAbort m val s
  | .denLoadComplete out => Sys2Proof.Machine.execDenLoadComplete out s
  | .denOutboundRequest den p => Sys2Proof.Machine.execDenOutboundRequest den p s
  | .denInboundRequest den p => Sys2Proof.Machine.execDenInboundRequest den p s
  | .denInboundResponse den p err data => Sys2Proof.Machine.execDenInboundResponse den p err data s
  | .denRspTimeout den p => Sys2Proof.Machine.execDenRspTimeout den p s
  | .drainWindowOpen den => Sys2Proof.Machine.execDrainWindowOpen den s
  | .freezePlaneActive den => Sys2Proof.Machine.execFreezePlaneActive den s
  | .freezeResetRelease den => Sys2Proof.Machine.execFreezeResetRelease den s
  | .freezeEnd den => Sys2Proof.Machine.execFreezeEnd den s
  | .badgerFrame words mapFlips upsets => Sys2Proof.Machine.execBadgerFrame words mapFlips upsets s
  | .reloadStart => Sys2Proof.Machine.execReloadStart s
  | .reloadComplete out => Sys2Proof.Machine.execReloadComplete out s
  | .cfgRefetch m val => Sys2Proof.Machine.execCfgRefetch m val s
  | .refetchComplete out => Sys2Proof.Machine.execRefetchComplete out s
  | .lapWatchExpire => Sys2Proof.Machine.execLapWatchExpire s
  | .bucketLeakTick b => Sys2Proof.Machine.execBucketLeakTick b s
  | .bucketCfgWrite m r val => Sys2Proof.Machine.execBucketCfgWrite m r val s
  | .netRequestInject p => Sys2Proof.Machine.execNetRequestInject p s
  | .netRequestTarget p remote flips tcmBad => Sys2Proof.Machine.execNetRequestTarget p remote flips tcmBad s
  | .netResponseDeliver p flips => Sys2Proof.Machine.execNetResponseDeliver p flips s
  | .slotFrameStart ring => Sys2Proof.Machine.execSlotFrameStart ring s
  | .validate m val => Sys2Proof.Machine.execValidate m val s
  | .validateDone => Sys2Proof.Machine.execValidateDone s
  | .vnxSlotWrite m addr val => Sys2Proof.Machine.execVnxSlotWrite m addr val s
  | .epochDrainEnd ring => Sys2Proof.Machine.execEpochDrainEnd ring s
  | .arbBoost w => Sys2Proof.Machine.execArbBoost w s
  | .creditReturn sender receiver rsp => Sys2Proof.Machine.execCreditReturn sender receiver rsp s
  | .bankWordAccess b sbe dbe => Sys2Proof.Machine.execBankWordAccess b sbe dbe s
  | .brwRemap m val => Sys2Proof.Machine.execBrwRemap m val s
  | .brwRemapCopyDone => Sys2Proof.Machine.execBrwRemapCopyDone s
  | .brwBankCtrlWrite m b val => Sys2Proof.Machine.execBrwBankCtrlWrite m b val s
  | .bankClearStart => Sys2Proof.Machine.execBankClearStart s
  | .bankClearDone b => Sys2Proof.Machine.execBankClearDone b s
  | .bankScrubRead b sbe dbe => Sys2Proof.Machine.execBankScrubRead b sbe dbe s
  | .ddrPortRequest p => Sys2Proof.Machine.execDdrPortRequest p s
  | .ddrReadReturn p lines => Sys2Proof.Machine.execDdrReadReturn p lines s
  | .patrolRead c line => Sys2Proof.Machine.execPatrolRead c line s
  | .memRemap m val => Sys2Proof.Machine.execMemRemap m val s
  | .memRemapCopyDone line => Sys2Proof.Machine.execMemRemapCopyDone line s
  | .memRetireHint m val => Sys2Proof.Machine.execMemRetireHint m val s
  | .dqPush p => Sys2Proof.Machine.execDqPush p s
  | .dqPushComplete q => Sys2Proof.Machine.execDqPushComplete q s
  | .dqWait p => Sys2Proof.Machine.execDqWait p s
  | .dqDrop p => Sys2Proof.Machine.execDqDrop p s
  | .dqCmdDrop m q val => Sys2Proof.Machine.execDqCmdDrop m q val s
  | .dqStaleTimeout q => Sys2Proof.Machine.execDqStaleTimeout q s
  | .dqCfgWrite m q val => Sys2Proof.Machine.execDqCfgWrite m q val s
  | .lanTxfirWrite m lane val => Sys2Proof.Machine.execLanTxfirWrite m lane val s
  | .laneTrained lane => Sys2Proof.Machine.execLaneTrained lane s
  | .laneTrainTimeout lane => Sys2Proof.Machine.execLaneTrainTimeout lane s
  | .laneTrainRetry lane => Sys2Proof.Machine.execLaneTrainRetry lane s
  | .eyeScan m lane val => Sys2Proof.Machine.execEyeScan m lane val s
  | .eyeScanDone lane mismatches => Sys2Proof.Machine.execEyeScanDone lane mismatches s
  | .spanAlignDone k skew => Sys2Proof.Machine.execSpanAlignDone k skew s
  | .linkInfo k info => Sys2Proof.Machine.execLinkInfo k info s
  | .codewordTx k => Sys2Proof.Machine.execCodewordTx k s
  | .codewordRx k rs payload frac => Sys2Proof.Machine.execCodewordRx k rs payload frac s
  | .replayTimeout k => Sys2Proof.Machine.execReplayTimeout k s
  | .elect k e => Sys2Proof.Machine.execElect k e s
  | .electSend => Sys2Proof.Machine.execElectSend s
  | .marker k mk rx => Sys2Proof.Machine.execMarker k mk rx s
  | .delayReq k id tx rx => Sys2Proof.Machine.execDelayReq k id tx rx s
  | .delayRsp k id t2 t3 t4 => Sys2Proof.Machine.execDelayRsp k id t2 t3 t4 s
  | .delayReqSend k => Sys2Proof.Machine.execDelayReqSend k s
  | .holdReq k origin count indef => Sys2Proof.Machine.execHoldReq k origin count indef s
  | .notice k master id kind => Sys2Proof.Machine.execNotice k master id kind s
  | .spanHalt k origin haltId mask hold => Sys2Proof.Machine.execSpanHalt k origin haltId mask hold s
  | .down k cause => Sys2Proof.Machine.execDown k cause s
  | .upstreamMarkerTimeout => Sys2Proof.Machine.execUpstreamMarkerTimeout s
  | .codewordLockLost k => Sys2Proof.Machine.execCodewordLockLost k s
  | .spnLinkDisable m k val => Sys2Proof.Machine.execSpnLinkDisable m k val s
  | .spnLinkEnable m k val => Sys2Proof.Machine.execSpnLinkEnable m k val s
  | .spanPortRequest p via => Sys2Proof.Machine.execSpanPortRequest p via s
  | .macTxControlWord p => Sys2Proof.Machine.execMacTxControlWord p s
  | .macTxData p => Sys2Proof.Machine.execMacTxData p s
  | .macFrameTxStart mac port => Sys2Proof.Machine.execMacFrameTxStart mac port s
  | .macFrameTxEnd mac port => Sys2Proof.Machine.execMacFrameTxEnd mac port s
  | .macFrameRx mac port frame ce ue => Sys2Proof.Machine.execMacFrameRx mac port frame ce ue s
  | .macControlFrameRx mac port frame ce ue => Sys2Proof.Machine.execMacControlFrameRx mac port frame ce ue s
  | .rxWait p => Sys2Proof.Machine.execRxWait p s
  | .rxDrop p => Sys2Proof.Machine.execRxDrop p s
  | .macRxqStale mac q => Sys2Proof.Machine.execMacRxqStale mac q s
  | .macQTailWrite m mac dir q val => Sys2Proof.Machine.execMacQTailWrite m mac dir q val s
  | .macDescProcess mac dir q desc buf => Sys2Proof.Machine.execMacDescProcess mac dir q desc buf s
  | .pauseTimerExpire mac port cls => Sys2Proof.Machine.execPauseTimerExpire mac port cls s
  | .pauseRepeat mac port cls => Sys2Proof.Machine.execPauseRepeat mac port cls s
  | .macTxtsPop m mac port => Sys2Proof.Machine.execMacTxtsPop m mac port s
  | .macPortLinkChange mac port up lf rf => Sys2Proof.Machine.execMacPortLinkChange mac port up lf rf s
  | .macEnableWrite m addr val => Sys2Proof.Machine.execMacEnableWrite m addr val s
  | .hostMemWrite bar off bytes poisoned => Sys2Proof.Machine.execHostMemWrite bar off bytes poisoned s
  | .hostMemRead bar off len hostTag => Sys2Proof.Machine.execHostMemRead bar off len hostTag s
  | .hostConfigRequest w hostTag => Sys2Proof.Machine.execHostConfigRequest w hostTag s
  | .hostInboundAnswer tag => Sys2Proof.Machine.execHostInboundAnswer tag s
  | .hostInLimitExpire tag => Sys2Proof.Machine.execHostInLimitExpire tag s
  | .hostOutboundRequest p => Sys2Proof.Machine.execHostOutboundRequest p s
  | .hostCompletion tag status data => Sys2Proof.Machine.execHostCompletion tag status data s
  | .completionTimeout tag => Sys2Proof.Machine.execCompletionTimeout tag s
  | .hostTagFree tag => Sys2Proof.Machine.execHostTagFree tag s
  | .hotReset => Sys2Proof.Machine.execHotReset s
  | .hostLinkUp rate width flit => Sys2Proof.Machine.execHostLinkUp rate width flit s
  | .elbWake val => Sys2Proof.Machine.execElbWake val s
  | .hstMsixSend m val => Sys2Proof.Machine.execHstMsixSend m val s
  | .msixMessage v => Sys2Proof.Machine.execMsixMessage v s
  | .mbDoorbell val => Sys2Proof.Machine.execMbDoorbell val s
  | .mbReqWrite off val => Sys2Proof.Machine.execMbReqWrite off val s
  | .mbTake m val => Sys2Proof.Machine.execMbTake m val s
  | .mbDone m val => Sys2Proof.Machine.execMbDone m val s
  | .ping => Sys2Proof.Machine.execPing s
  | .info => Sys2Proof.Machine.execInfo s
  | .read err data => Sys2Proof.Machine.execRead err data s
  | .write err => Sys2Proof.Machine.execWrite err s
  | .log => Sys2Proof.Machine.execLog s
  | .ledger => Sys2Proof.Machine.execLedger s
  | .haltB => Sys2Proof.Machine.execHaltB s
  | .resumeB => Sys2Proof.Machine.execResumeB s
  | .coreNetworkAccess p addr store bytes rd val => Sys2Proof.Machine.execCoreNetworkAccess p addr store bytes rd val s
  | .mtimerInterrupt p => Sys2Proof.Machine.execMtimerInterrupt p s
  | .coreDoorbell p val => Sys2Proof.Machine.execCoreDoorbell p val s
  | .coreMismatch p => Sys2Proof.Machine.execCoreMismatch p s
  | .delayParityError p => Sys2Proof.Machine.execDelayParityError p s
  | .comparatorSelfTest p detected => Sys2Proof.Machine.execComparatorSelfTest p detected s
  | .tcmParityError p off => Sys2Proof.Machine.execTcmParityError p off s
  | .pairRestartDone p => Sys2Proof.Machine.execPairRestartDone p s
  | .brkCtrlWrite m val => Sys2Proof.Machine.execBrkCtrlWrite m val s
  | .ebreak p pc => Sys2Proof.Machine.execEbreak p pc s
  | .dwLowEnd gap ns => Sys2Proof.Machine.execDwLowEnd gap ns s
  | .dwFrameTimeout => Sys2Proof.Machine.execDwFrameTimeout s
  | .dwReplyStart => Sys2Proof.Machine.execDwReplyStart s
  | .idcode => Sys2Proof.Machine.execIdcode s
  | .status => Sys2Proof.Machine.execStatus s
  | .halt mask => Sys2Proof.Machine.execHalt mask s
  | .resume mask => Sys2Proof.Machine.execResume mask s
  | .step p => Sys2Proof.Machine.execStep p s
  | .feed p instr => Sys2Proof.Machine.execFeed p instr s
  | .result p => Sys2Proof.Machine.execResult p s
  | .rddata p => Sys2Proof.Machine.execRddata p s
  | .wrdata p val => Sys2Proof.Machine.execWrdata p val s
  | .rdpc p => Sys2Proof.Machine.execRdpc p s
  | .wrpc p pc => Sys2Proof.Machine.execWrpc p pc s
  | .group p inMask outMask => Sys2Proof.Machine.execGroup p inMask outMask s
  | .xcfg global hold => Sys2Proof.Machine.execXcfg global hold s
  | .xhalt mask => Sys2Proof.Machine.execXhalt mask s
  | .glitch => Sys2Proof.Machine.execGlitch s
  | .dbgCtrlHalt m p => Sys2Proof.Machine.execDbgCtrlHalt m p s
  | .dbgCtrlResume m p => Sys2Proof.Machine.execDbgCtrlResume m p s
  | .dbgCtrlStep m p => Sys2Proof.Machine.execDbgCtrlStep m p s
  | .dbgFeedWrite m p instr => Sys2Proof.Machine.execDbgFeedWrite m p instr s
  | .feedComplete p => Sys2Proof.Machine.execFeedComplete p s
  | .brkXhalt m val => Sys2Proof.Machine.execBrkXhalt m val s
  | .fusProg m val => Sys2Proof.Machine.execFusProg m val s
  | .fusProgComplete again stuck => Sys2Proof.Machine.execFusProgComplete again stuck s
  | .eventLogWrite => Sys2Proof.Machine.execEventLogWrite s
  | .evtRaise m val => Sys2Proof.Machine.execEvtRaise m val s
  | .eventPulseEnd pin => Sys2Proof.Machine.execEventPulseEnd pin s
  | .evtTrigClr m val => Sys2Proof.Machine.execEvtTrigClr m val s
  | .logRecordRead m idx => Sys2Proof.Machine.execLogRecordRead m idx s
  | .ledgerUpdate => Sys2Proof.Machine.execLedgerUpdate s
  | .ledgerErase m val => Sys2Proof.Machine.execLedgerErase m val s
  | .ledgerEraseDone => Sys2Proof.Machine.execLedgerEraseDone s
  | .senseComplete => Sys2Proof.Machine.execSenseComplete s
  | .tmrDisagreement n => Sys2Proof.Machine.execTmrDisagreement n s
  | .spanLaneFailure k => Sys2Proof.Machine.execSpanLaneFailure k s
  | .hostLinkError e => Sys2Proof.Machine.execHostLinkError e s
  | .dwReplyInterrupted gap ns => Sys2Proof.Machine.execDwReplyInterrupted gap ns s
  | .waitcycWrap q => Sys2Proof.Machine.execWaitcycWrap q s
  | .bankRetainToOn b => Sys2Proof.Machine.execBankRetainToOn b s

end Sys2Proof.Machine
end

