-- ==== Sys2Proof/Safety.lean ====
section
/-! DEFINITION. What the claims speak of: the parts of the state, what an access needs to be admitted, and the invariants
of the machine. -/

namespace Sys2Proof.Machine

/-! ## Parts of the state -/

/-- The parts of the state, one per block of the manual and one per field of the model's own. -/
inductive Part where
  | pending | bus | time | tbs | clk | pwr | ioc | den | bdg | vnx | brw | mem | lan | spn | mac | hst | brk | fus | evt
  | fab | ram | latch | fresh
deriving DecidableEq, Repr

/-- Two states agree on a part. -/
def Part.same (s t : State) : Part → Prop
  | .pending => t.pending = s.pending
  | .bus => t.bus = s.bus
  | .time => t.time = s.time
  | .tbs => t.tbs = s.tbs
  | .clk => t.clk = s.clk
  | .pwr => t.pwr = s.pwr
  | .ioc => t.ioc = s.ioc
  | .den => t.den = s.den
  | .bdg => t.bdg = s.bdg
  | .vnx => t.vnx = s.vnx
  | .brw => t.brw = s.brw
  | .mem => t.mem = s.mem
  | .lan => t.lan = s.lan
  | .spn => t.spn = s.spn
  | .mac => t.mac = s.mac
  | .hst => t.hst = s.hst
  | .brk => t.brk = s.brk
  | .fus => t.fus = s.fus
  | .evt => t.evt = s.evt
  | .fab => t.fab = s.fab
  | .ram => t.ram = s.ram
  | .latch => t.latch = s.latch
  | .fresh => t.fresh = s.fresh

/-- The frame of a command: t is s but for the parts named. -/
def Frame (parts : List Part) (s t : State) : Prop := ∀ p : Part, p ∈ parts ∨ p.same s t

/-- From s to t these packets, in this order, have entered the network, and nothing has left it. -/
def Sent (s t : State) (l : List Packet) : Prop := t.vnx.net.map (·.pkt) = s.vnx.net.map (·.pkt) ++ l

/-! ## Messages that have come over a span link (R263) -/

/-- When the first control message m that waits on link k came; and the state in which it has been taken, 60 ns later. -/
def State.ctlAt (s : State) (k : Nat) (m : SpanMsg) : Option Nat := ((s.linkAt k).rxCtl.find? fun x => x.1 == m).map (·.2)
def State.ctlTaken (s : State) (k : Nat) (m : SpanMsg) (t : Nat) : State :=
  (s.advanceTo (t + 60)).modLink k fun l => { l with rxCtl := removeFirst (fun y => y.1 == m) l.rxCtl }

/-- The same for a timing message, with its receive stamp where one is named. -/
def isTiming (m : SpanMsg) (rx : Option Stamp) (x : SpanMsg × Stamp × Nat) : Bool := x.1 == m && (rx.isNone || rx == some x.2.1)
def State.timingAt (s : State) (k : Nat) (m : SpanMsg) (rx : Option Stamp) : Option Nat := ((s.linkAt k).rxTiming.find? (isTiming m rx)).map (·.2.2)
def State.timingTaken (s : State) (k : Nat) (m : SpanMsg) (rx : Option Stamp) (t : Nat) : State :=
  (s.advanceTo (t + 60)).modLink k fun l => { l with rxTiming := removeFirst (isTiming m rx) l.rxTiming }

/-! ## Accesses -/

/-- The access tables and the fixed rows of Table 14.4 let master m write the register at an address of a device that is
on (R350, R352). -/
def State.admitsWrite (s : State) (m : MasterId) (addr : Addr) : Bool :=
  s.on && !protectedWrite m addr && !s.denied m (csrTarget (addr.toNat / 0x100000)) false true

/-- The same for a read. -/
def State.admitsRead (s : State) (m : MasterId) (addr : Addr) : Bool :=
  s.on && !s.denied m (csrTarget (addr.toNat / 0x100000)) true false

/-- The access reaches a device that is on and is turned away. -/
def State.refusesWrite (s : State) (m : MasterId) (addr : Addr) : Bool :=
  s.on && (protectedWrite m addr || s.denied m (csrTarget (addr.toNat / 0x100000)) false true)

/-- The record an event raised now leaves (Table 16.1, R384). -/
def State.record (s : State) (m : Option MasterId) (e : Ev) (detail : Word) : EvRec :=
  { stamp := s.stamp, code := e.code, source := s.source m, detail := detail }

/-! ## Invariants -/

/-- The credits of every trail link and bridge, on each virtual channel, add up to its depth, 8: held, in flight with a flit,
taken by an occupied place, or on their way back (R198); and the table of links is in its canonical form. -/
def CreditsKept (s : State) : Prop :=
  Tab.wf {} s.vnx.links = true ∧
    ∀ i, let l := s.vnx.links.getD i {}; l.held + l.flying.length + l.buf.length + l.returning.length = 8

/-- Every event raised is logged, in the queue, or lost (R389). -/
def EventsKept (s : State) : Prop :=
  s.evt.raised = s.evt.seq + BitVec.ofNat 64 s.evt.queue.length + s.evt.lostAll ∧ s.evt.queue.length ≤ 64

/-- The 64 tokens of every decoupling queue are free, outstanding with a push, or unread with a packet (R236), and the
table of queues is in its canonical form. -/
def TokensKept (s : State) : Prop :=
  Tab.wf {} s.mem.dq = true ∧ ∀ q, let d := s.dqAt q
    d.outstanding = d.pushes.length ∧ d.unread = d.packets.length ∧ d.free + d.outstanding + d.unread = 64

/-- The step budget never holds more than its depth (R100). -/
def BudgetKept (s : State) : Prop := s.pwr.tokens.toNat ≤ s.pwr.depth.toNat

/-- The bounded lists of the manual are within their bounds: known-bad lists (R170, R209, R230), the Ledger FIFO (R394),
the tracked requests (R276); and the tables of channels and of timed actions are in their canonical form. -/
def ListsBounded (s : State) : Prop :=
  s.bdg.bad.length ≤ 16 ∧ (∀ b, (s.bankAt b).bad.length ≤ 4) ∧ Tab.wf {} s.mem.ch = true ∧ (∀ c, (s.chAt c).bad.length ≤ 8) ∧
    s.evt.fifo.length ≤ 16 ∧ s.spn.tracked.length ≤ 1024 ∧ Tab.wf {} s.tbs.table = true

/-- Byte memory is in its canonical form. -/
def MemoryKept (s : State) : Prop := Memory.wf s.ram = true

end Sys2Proof.Machine
end

