-- ==== Sys2Proof/WellFormed.lean ====
section
/-! DEFINITION. The commands a sender can form: the rules on operands that their types do not carry. -/

namespace Sys2Proof

/-- A request: its data flits hold the bytes its LEN names (R185). -/
def Packet.reqOk (p : Packet) : Bool :=
  p.hdr.opc != opRsp &&
    p.data.length == if p.hdr.isWrite || p.hdr.isAtomic || p.hdr.isPush then p.hdr.bytes else 0

/-- A response: only an OK one carries data, of at most 4,096 bytes (R185). -/
def Packet.rspOk (p : Packet) : Bool :=
  p.hdr.opc == opRsp && (p.hdr.err == 0 || p.data.isEmpty) && decide (p.data.length ≤ 4096)

/-- An answer to a request: an OK READ brings its bytes, any other answer none (R185). -/
def answerOk (p : Packet) (err : Err) (data : List Byte) : Bool :=
  data.length == if p.hdr.isRead && err == .ok then p.hdr.bytes else 0

/-- A command whose operands keep the rules of its row. -/
def Instr.wellFormed : Instr → Bool
  | .systemSectionRead bytes => bytes.length == 0x800
  | .slotTableRead _ primary backup => decide (0x4C ≤ primary.length) && decide (0x4C ≤ backup.length)
  | .verifyChecksDone _ vcco => vcco.length == 16
  | .denOutboundRequest den p => p.reqOk && p.hdr.src.toNat == 16 + den.val
  | .denInboundRequest _ p => p.reqOk
  | .denInboundResponse _ p err data => p.reqOk && answerOk p err data
  | .denRspTimeout _ p => p.reqOk
  | .badgerFrame _ _ upsets => decide (upsets.map (·.word)).Nodup
  | .netRequestInject p => p.reqOk
  | .netRequestTarget p _ _ _ => p.reqOk
  | .netResponseDeliver p _ => p.rspOk
  | .ddrPortRequest p => p.reqOk
  | .ddrReadReturn p lines => p.reqOk && decide (lines.length ≤ 65)
  | .dqPush p => p.reqOk && p.hdr.isPush
  | .dqWait p => p.reqOk && p.hdr.isRead
  | .dqDrop p => p.reqOk && p.hdr.isWrite
  | .spanPortRequest p _ => p.reqOk || p.rspOk
  | .macTxControlWord p => p.reqOk && p.hdr.isWrite
  | .macTxData p => p.reqOk && p.hdr.isWrite
  | .rxWait p => p.reqOk && p.hdr.isRead
  | .rxDrop p => p.reqOk && p.hdr.isWrite
  | .macDescProcess _ _ _ desc buf => decide (desc.2.length ≤ 32) && decide (buf.2.length ≤ 16384)
  | .hostMemWrite _ _ bytes _ => decide (bytes.length ≤ 4096)
  | .hostMemRead _ _ len _ => decide (len ≤ 4096)
  | .hostOutboundRequest p => p.reqOk
  | .coreNetworkAccess _ addr _ bytes _ _ => (bytes == 1 || bytes == 2 || bytes == 4) && addr.toNat % bytes.toNat == 0
  | .tcmParityError p off => decide (off.toNat < if p.val = 0 then 0x40000 else 0x80000)
  | .csrWrite .. | .rcRead .. | .latchedLoRead .. | .tickEdge | .tickDone .. | .tbsDoneBrkb .. | .electionClose
  | .tbsNoMasterRepeat | .actLockRead .. | .actLockTimeout | .actStageWrite .. | .arm .. | .cancel .. | .query ..
  | .actCmdRelease .. | .trigAction .. | .trigPulseEnd .. | .eventAction .. | .tbsHoldWrite .. | .heldHoldRelease
  | .holdover | .syncEdge | .owlAonWindow .. | .owlRefWindow .. | .owlMissingEdge .. | .pllLock .. | .pllLoss ..
  | .resetRestart | .holdExit | .crossingWakeRequest .. | .domainIdleRegate .. | .avsFrameDone .. | .avsVoltagePoll
  | .opSettleDone | .opChangeTimeout | .vccAonGood .. | .vccAonLost .. | .railGood .. | .railLost .. | .vccoLost ..
  | .vccoReturn .. | .powerSwitchStep | .lockComplete | .slotReadComplete .. | .ddrTrainingDone .. | .verifyEnd
  | .releaseGroup | .pwrModeReqWrite .. | .wakeSource .. | .wakeTimerArm .. | .wakeTimerExpire | .pwrStopReq ..
  | .stepGrant | .stepDepthWrite .. | .powerWindow .. | .pinResetAssert | .pinResetRelease | .trigInputEdge ..
  | .trigCurrentLimit .. | .settEccError .. | .denLoadStart .. | .denLoadAbort .. | .denLoadComplete ..
  | .drainWindowOpen .. | .freezePlaneActive .. | .freezeResetRelease .. | .freezeEnd .. | .reloadStart
  | .reloadComplete .. | .cfgRefetch .. | .refetchComplete .. | .lapWatchExpire | .bucketLeakTick ..
  | .bucketCfgWrite .. | .slotFrameStart .. | .validate .. | .validateDone | .vnxSlotWrite .. | .epochDrainEnd ..
  | .arbBoost .. | .creditReturn .. | .bankWordAccess .. | .brwRemap .. | .brwRemapCopyDone | .brwBankCtrlWrite ..
  | .bankClearStart | .bankClearDone .. | .bankScrubRead .. | .patrolRead .. | .memRemap .. | .memRemapCopyDone ..
  | .memRetireHint .. | .dqPushComplete .. | .dqCmdDrop .. | .dqStaleTimeout .. | .dqCfgWrite .. | .lanTxfirWrite ..
  | .laneTrained .. | .laneTrainTimeout .. | .laneTrainRetry .. | .eyeScan .. | .eyeScanDone .. | .spanAlignDone ..
  | .linkInfo .. | .codewordTx .. | .codewordRx .. | .replayTimeout .. | .elect .. | .electSend | .marker .. | .delayReq ..
  | .delayRsp .. | .delayReqSend .. | .holdReq .. | .notice .. | .spanHalt .. | .down .. | .upstreamMarkerTimeout
  | .codewordLockLost .. | .spnLinkDisable .. | .spnLinkEnable .. | .macFrameTxStart .. | .macFrameTxEnd ..
  | .macFrameRx .. | .macControlFrameRx .. | .macRxqStale .. | .macQTailWrite .. | .pauseTimerExpire ..
  | .pauseRepeat .. | .macTxtsPop .. | .macPortLinkChange .. | .macEnableWrite .. | .hostConfigRequest ..
  | .hostInboundAnswer .. | .hostInLimitExpire .. | .hostCompletion .. | .completionTimeout .. | .hostTagFree ..
  | .hotReset | .hostLinkUp .. | .elbWake .. | .hstMsixSend .. | .msixMessage .. | .mbDoorbell .. | .mbReqWrite ..
  | .mbTake .. | .mbDone .. | .ping | .info | .read .. | .write .. | .log | .ledger | .haltB | .resumeB
  | .mtimerInterrupt .. | .coreDoorbell .. | .coreMismatch .. | .delayParityError .. | .comparatorSelfTest ..
  | .pairRestartDone .. | .brkCtrlWrite .. | .ebreak .. | .dwLowEnd .. | .dwFrameTimeout | .dwReplyStart | .idcode
  | .status | .halt .. | .resume .. | .step .. | .feed .. | .result .. | .rddata .. | .wrdata .. | .rdpc ..
  | .wrpc .. | .group .. | .xcfg .. | .xhalt .. | .glitch | .dbgCtrlHalt .. | .dbgCtrlResume .. | .dbgCtrlStep ..
  | .dbgFeedWrite .. | .feedComplete .. | .brkXhalt .. | .fusProg .. | .fusProgComplete .. | .eventLogWrite
  | .evtRaise .. | .eventPulseEnd .. | .evtTrigClr .. | .logRecordRead .. | .ledgerUpdate | .ledgerErase ..
  | .ledgerEraseDone | .senseComplete | .tmrDisagreement .. | .spanLaneFailure .. | .hostLinkError ..
  | .dwReplyInterrupted .. | .waitcycWrap .. | .bankRetainToOn .. => true

end Sys2Proof
end

