-- ==== Sys2Proof/Certificates/Slice0/Obligations.lean ====
section
/-! DEFINITION. The statements about the model, for the provers. Each names the rules of the manual it rests on. -/

open Sys2Proof Sys2Proof.Machine

/-- A read of TBS_ACT_LOCK grants a free lock and returns 1, and returns 0 while another master holds it. A write to a
staging register or to TBS_ACT_CMD from a master that does not hold the lock is answered BUSY and changes nothing
else; the holder's staging write takes effect. Every command of the holder releases the lock, and so do 10 µs after
the grant. (R31) -/
def Obligations.StagingLock : Prop :=
  (∀ s m, s.admitsRead m 0x80 = true → s.lockHolder = none →
    exec (.actLockRead m) s = .next ((s.modTbs fun t => { t with lock := some m, lockAt := s.now }).answer m .ok 1)) ∧
  (∀ s m h, s.admitsRead m 0x80 = true → s.lockHolder = some h → h ≠ m →
    exec (.actLockRead m) s = .next (s.answer m .ok 0)) ∧
  (∀ s m (w : Fin 4) v, s.admitsWrite m (BitVec.ofNat 48 (0x84 + 4 * w.val)) = true → s.lockHolder ≠ some m →
    exec (.actStageWrite m w v) s = .next (s.answer m .busy 0)) ∧
  (∀ s m, s.admitsWrite m 0x94 = true → s.lockHolder ≠ some m →
    exec (.arm m) s = .next (s.answer m .busy 0) ∧ exec (.actCmdRelease m) s = .next (s.answer m .busy 0) ∧
      ∀ i g, exec (.cancel m i g) s = .next (s.answer m .busy 0) ∧ exec (.query m i) s = .next (s.answer m .busy 0)) ∧
  (∀ s m v, s.lockHolder = some m →
    (s.admitsWrite m 0x84 = true → exec (.actStageWrite m 0 v) s = .next ((s.modTbs fun t => { t with w0 := v &&& 0xFF1F }).answer m .ok 0)) ∧
    (s.admitsWrite m 0x88 = true → exec (.actStageWrite m 1 v) s = .next ((s.modTbs fun t => { t with w1 := v }).answer m .ok 0)) ∧
    (s.admitsWrite m 0x8C = true → exec (.actStageWrite m 2 v) s = .next ((s.modTbs fun t => { t with w2 := v }).answer m .ok 0)) ∧
    (s.admitsWrite m 0x90 = true → exec (.actStageWrite m 3 v) s = .next ((s.modTbs fun t => { t with w3 := v }).answer m .ok 0))) ∧
  (∀ s m, s.admitsWrite m 0x94 = true → s.lockHolder = some m →
    exec (.actCmdRelease m) s = .next ((s.modTbs fun t => { t with lock := none }).answer m .ok 0) ∧
      ∀ c ∈ [Instr.arm m, .actCmdRelease m], ∃ t, exec c s = .next t ∧ t.tbs.lock = none ∧ t.bus.err = .ok) ∧
  (∀ s m i g, s.admitsWrite m 0x94 = true → s.lockHolder = some m →
    ∀ c ∈ [Instr.cancel m i g, .query m i], ∃ t, exec c s = .next t ∧ t.tbs.lock = none ∧ t.bus.err = .ok) ∧
  (∀ s : State, s.tbs.lockAt + 10000 ≤ s.now → s.lockHolder = none) ∧
  (∀ s, s.tbs.lock.isSome = true → ∃ t, exec .actLockTimeout s = .next t ∧ t.tbs = { s.tbs with lock := none } ∧
    t.now = max s.now (s.tbs.lockAt + 10000))

/-- The holder's ARM of an entry of a known class, in range, allowed to the device's role and not past stores it, armed,
at the lowest free index i, leaves every other entry as it was, and returns OK with i and the generation number, which
is 0 at first use (model's choice, log 1) and counts up at each reuse. With no free index it returns FULL and the
table keeps every entry; a follower's PERIOD entry is answered ROLE, a class of 6 or 7 CLASS, and an entry out of
range RANGE, and nothing is stored. (R28, R29, R30, R33, R36) -/
def Obligations.ArmStores : Prop :=
  (∀ s m i, s.admitsWrite m 0x94 = true → s.lockHolder = some m → i < 256 → (s.actAt i).state = .free →
    (∀ j < i, (s.actAt j).state ≠ .free) → s.tbs.staged.cls.toNat < 6 → s.tbs.staged.inRange = true →
    (s.tbs.staged.cls = 5 → s.follower = false) → s.isPast s.tbs.staged = false →
    ∃ t, exec (.arm m) s = .next t ∧
      t.actAt i = { s.tbs.staged with state := .armed, used := true, gen := if (s.actAt i).used then (s.actAt i).gen + 1 else 0 } ∧
      (∀ j, j ≠ i → t.actAt j = s.actAt j) ∧ t.tbs.result = ofFields [(0, 0), (8, i), (16, (t.actAt i).gen.toNat)]) ∧
  (∀ s m, s.admitsWrite m 0x94 = true → s.lockHolder = some m → (∀ j < 256, (s.actAt j).state ≠ .free) →
    s.tbs.staged.cls.toNat < 6 → s.tbs.staged.inRange = true → (s.tbs.staged.cls = 5 → s.follower = false) →
    s.isPast s.tbs.staged = false →
    ∃ t, exec (.arm m) s = .next t ∧ t.tbs.table = s.tbs.table ∧ t.tbs.result = ofFields [(0, 1), (8, 0), (16, 0)]) ∧
  (∀ s m, s.admitsWrite m 0x94 = true → s.lockHolder = some m →
    (6 ≤ s.tbs.staged.cls.toNat →
      ∃ t, exec (.arm m) s = .next t ∧ t.tbs.table = s.tbs.table ∧ t.tbs.result = ofFields [(0, 2), (8, 0), (16, 0)]) ∧
    (s.tbs.staged.cls.toNat < 6 → s.tbs.staged.inRange = false →
      ∃ t, exec (.arm m) s = .next t ∧ t.tbs.table = s.tbs.table ∧ t.tbs.result = ofFields [(0, 3), (8, 0), (16, 0)]) ∧
    (s.tbs.staged.cls = 5 → s.tbs.staged.inRange = true → s.follower = true →
      ∃ t, exec (.arm m) s = .next t ∧ t.tbs.table = s.tbs.table ∧ t.tbs.result = ofFields [(0, 4), (8, 0), (16, 0)]))

/-- CANCEL with the entry's generation number frees an armed entry that is due at least 40 ns after now, or a waiting one,
records outcome CANCELLED and returns OK; it returns TOO_LATE for one due earlier, and NOTFOUND for a free index or
another generation number, and then the table stays. QUERY returns the index, its generation number, its state and its
last outcome, and the table stays. (R34, R35, R41) -/
def Obligations.CancelAndQuery : Prop :=
  (∀ s m i g, s.admitsWrite m 0x94 = true → s.lockHolder = some m → (s.actAt (BitVec.toNat i)).gen = g →
    ((s.actAt i.toNat).state = .waiting ∨ (s.actAt i.toNat).state = .armed ∧
      ∀ t, s.dueAt (s.actAt i.toNat).due = some t → s.time.sys.toNat + 40 * 256 ≤ t) →
    ∃ t, exec (.cancel m i g) s = .next t ∧ t.actAt i.toNat = { s.actAt i.toNat with state := .free, outcome := 4 } ∧
      (∀ j, j ≠ i.toNat → t.actAt j = s.actAt j) ∧ t.tbs.result = ofFields [(0, 0), (8, i.toNat), (16, g.toNat)]) ∧
  (∀ s m i g x, s.admitsWrite m 0x94 = true → s.lockHolder = some m → (s.actAt (BitVec.toNat i)).gen = g →
    (s.actAt i.toNat).state = .armed → s.dueAt (s.actAt i.toNat).due = some x → x < s.time.sys.toNat + 40 * 256 →
    ∃ t, exec (.cancel m i g) s = .next t ∧ t.tbs.table = s.tbs.table ∧
      t.tbs.result = ofFields [(0, 8), (8, i.toNat), (16, g.toNat)]) ∧
  (∀ s m i g, s.admitsWrite m 0x94 = true → s.lockHolder = some m →
    ((s.actAt (BitVec.toNat i)).state = .free ∨ (s.actAt i.toNat).gen ≠ g) →
    ∃ t, exec (.cancel m i g) s = .next t ∧ t.tbs.table = s.tbs.table ∧
      t.tbs.result = ofFields [(0, 7), (8, i.toNat), (16, (s.actAt i.toNat).gen.toNat)]) ∧
  (∀ s m i, s.admitsWrite m 0x94 = true → s.lockHolder = some m →
    exec (.query m i) s = .next ((s.modTbs fun t =>
      { t with
        lock := none
        result := ofFields [(8, BitVec.toNat i), (16, (s.actAt i.toNat).gen.toNat),
          (24, ((s.actAt i.toNat).state != .free).toNat), (25, (s.actAt i.toNat).outcome.toNat)] }).answer m .ok 0))

/-- In RUN or SLEEP, with system time running and no tick edge before it, the one armed action of its target due at its
time runs when its row comes: time moves on to it, its entry becomes free with outcome RAN (RAN_LATE when it was stored
past), an EVENT action raises TBS_ACTION with ARG, and a TRIG action sets its pin or reports one that is not a timed
output. Outside those modes the entry waits. Two actions due together on one target: the lower index runs, the other is
refused and reported. The table is in its canonical form, as every step leaves it (MemoryAndListsStay). (R28, R38, R40,
R41) -/
def Obligations.TimedActionRuns : Prop :=
  (∀ s (i : Byte) w, (s.mode = .run ∨ s.mode = .sleep) → s.time.runs = true → Tab.wf {} s.tbs.table = true →
    w.toNat < 256 * s.tbs.nextEdge.toNat → (s.actAt i.toNat).state = .armed → (s.actAt i.toNat).due = .time w →
    (∀ j, j ≠ i.toNat → (s.actAt j).state ≠ .armed) →
    let a := (s.advance (s.cyclesTo w.toNat)).modAct i.toNat fun e => { e with state := .free, outcome := if e.wasLate then 3 else 1 }
    ((s.actAt i.toNat).cls = 1 → exec (.eventAction i) s = .next (a.raise .tbsAction (s.actAt i.toNat).arg)) ∧
    ((s.actAt i.toNat).cls = 0 →
      exec (.trigAction i) s = .next (a.runTrig (s.actAt i.toNat).target.toNat (s.actAt i.toNat).arg))) ∧
  (∀ s (i : Byte) w, s.mode ≠ .run → s.mode ≠ .sleep → s.time.runs = true → Tab.wf {} s.tbs.table = true →
    w.toNat < 256 * s.tbs.nextEdge.toNat → (s.actAt i.toNat).state = .armed → (s.actAt i.toNat).cls = 1 →
    (s.actAt i.toNat).due = .time w → (∀ j, j ≠ i.toNat → (s.actAt j).state ≠ .armed) →
    exec (.eventAction i) s = .next
      ((s.advance (s.cyclesTo w.toNat)).modAct i.toNat fun e => { e with state := .waiting })) ∧
  (∀ s (i j : Byte) w, (s.mode = .run ∨ s.mode = .sleep) → s.time.runs = true → Tab.wf {} s.tbs.table = true →
    w.toNat < 256 * s.tbs.nextEdge.toNat → i.toNat < j.toNat →
    (∀ k : Byte, k = i ∨ k = j → (s.actAt k.toNat).state = .armed ∧ (s.actAt k.toNat).cls = 1 ∧ (s.actAt k.toNat).due = .time w) →
    (∀ k, k ≠ i.toNat → k ≠ j.toNat → (s.actAt k).state ≠ .armed) →
    ∃ t, exec (.eventAction i) s = .next t ∧ (t.actAt j.toNat).state = .free ∧ (t.actAt j.toNat).outcome = 5 ∧
      (t.actAt i.toNat).state = .free ∧ (t.actAt i.toNat).outcome = if (s.actAt i.toNat).wasLate then 3 else 1)

/-- While system time runs, TICK_EDGE completes in every state: the last edge becomes the edge that was next, the next one
lies one period (the one in force after the edge) later, and the tick number advances by 1 unless the edge is skipped.
With no hold request and no notice waiting, an edge is skipped exactly when a hold of edges is left or is indefinite, and
the count left goes down by 1. A skipped edge leaves the overrun record as it was; at any other, in RUN after release
stage 3, every declared source without its latch is added to the sticky bits and the count goes up once. Fuses, the last
answer and the latched words stay. (R17, R18, R19, R26, R27, R43, R44) -/
def Obligations.TickEdges : Prop :=
  (∀ s, s.time.runs = true → ∃ t, exec .tickEdge s = .next t ∧ t.tbs.lastEdge = s.tbs.nextEdge ∧
    t.tbs.nextEdge = s.tbs.nextEdge + BitVec.ofNat 64 t.tbs.period.toNat ∧
    t.tbs.tick = (if t.tbs.holdActive then s.tbs.tick else s.tbs.tick + 1) ∧
    (t.tbs.holdActive = true → t.tbs.overrun = s.tbs.overrun ∧ t.tbs.overrunCount = s.tbs.overrunCount) ∧
    (t.tbs.holdActive = false → s.mode = .run → s.tbs.checkOn = true →
      t.tbs.overrun = s.tbs.overrun ||| (s.tbs.doneMask &&& ~~~s.tbs.done) ∧
      t.tbs.overrunCount = if s.tbs.doneMask &&& ~~~s.tbs.done = 0 then s.tbs.overrunCount else satInc s.tbs.overrunCount) ∧
    t.fus = s.fus ∧ t.bus = s.bus ∧ t.latch = s.latch ∧ t.pending = s.pending) ∧
  (∀ s, s.time.runs = true → s.tbs.holdQ = [] → s.tbs.sched = [] → ∃ t, exec .tickEdge s = .next t ∧
    (t.tbs.holdActive = (s.tbs.indef || s.tbs.holdLeft != 0)) ∧ t.tbs.indef = s.tbs.indef ∧
    (s.tbs.indef = false → t.tbs.holdLeft = if s.tbs.holdLeft = 0 then 0 else s.tbs.holdLeft - 1))

/-- TICK_DONE of a declared den that is neither isolated nor in its freeze, of the declared loop channel whose work of the
tick is done, or of Brock-B by its register sets its latch at least 4 ns before the edge, and the latch of the following
tick later; nothing else changes. A TBS_HOLD write on the master in RUN is kept as the register's value and joins the
requests; one held through SLEEP does so after the return to RUN. An AUTO device that has heard no better candidate
becomes master when election closes. With no master, TBS_NO_MASTER is raised again a second later. A follower that misses
its markers goes to holdover, stops steering and reports it. (R20, R22, R25, R42, R46, R191) -/
def Obligations.TickSignals : Prop :=
  (∀ s (d : Fin 49), d.val < 48 → (s.denAt d).isolated = false → (s.denAt d).freeze = none → s.tbs.doneMask.getLsbD d = true →
    exec (.tickDone d) s = .next (s.modTbs fun t => if 4 ≤ s.nextEdgeLocal - s.now then { t with done := setBit t.done d true }
      else { t with doneNext := setBit t.doneNext d true })) ∧
  (∀ s, s.loopDone = true → s.tbs.doneMask.getLsbD 48 = true →
    exec (.tickDone 48) s = .next (s.modTbs fun t => if 4 ≤ s.nextEdgeLocal - s.now then { t with done := setBit t.done 48 true }
      else { t with doneNext := setBit t.doneNext 48 true })) ∧
  (∀ s (d : Fin 49), d.val < 48 → ((s.denAt d).isolated = true ∨ (s.denAt d).freeze ≠ none) → exec (.tickDone d) s = .next s) ∧
  (∀ s m v, s.admitsWrite m 0x58 = true → BitVec.getLsbD (v : Word) 0 = true → s.tbs.doneMask.getLsbD 49 = true →
    exec (.tbsDoneBrkb m v) s = .next ((s.modTbs fun t => if 4 ≤ s.nextEdgeLocal - s.now then { t with done := setBit t.done 49 true }
      else { t with doneNext := setBit t.doneNext 49 true }).answer m .ok 0)) ∧
  (∀ s m v, s.admitsWrite m 0x40 = true → s.mode = .run → s.follower = false →
    ∃ t, exec (.tbsHoldWrite m v) s = .next t ∧ Frame [.bus, .tbs, .spn] s t ∧ t.bus = ⟨m, .ok, 0⟩ ∧ t.tbs = { s.tbs with
      holdReg := v &&& 0x1FFFF
      holdQ := insertHold { time := s.now, dev := s.tbs.devNum, count := BitVec.ofNat 16 v.toNat, indef := v.getLsbD 16 } s.tbs.holdQ }) ∧
  (∀ s v, s.tbs.heldHold = some v → s.mode = .run → s.linksUp = true → s.follower = false →
    ∃ t, exec .heldHoldRelease s = .next t ∧ Frame [.tbs, .spn] s t ∧ t.tbs = { s.tbs with
      heldHold := none
      holdQ := insertHold { time := s.now, dev := s.tbs.devNum, count := BitVec.ofNat 16 v.toNat, indef := v.getLsbD 16 } s.tbs.holdQ }) ∧
  (∀ s t0, s.tbs.electAt = some t0 → s.mode = .lock → s.tbs.elected = false → s.tbs.imgRole = 2 → s.tbs.best = none →
    exec .electionClose s = .next ((s.advanceTo t0).modTbs fun t =>
      { t with electAt := none, noMaster := none, elected := true, role := 1, aligned := true, masterNum := s.tbs.devNum, offset := 0 })) ∧
  (∀ s t0, s.tbs.noMaster = some t0 → s.mode = .lock →
    let a := s.advanceTo (t0 + 1000000000)
    exec .tbsNoMasterRepeat s = .next ((a.modTbs fun t => { t with noMaster := some a.now }).raise .tbsNoMaster 0)) ∧
  (∀ s, s.tbs.role = 2 → let a := s.advanceTo (s.tbs.lastMarker + 16 * s.tbs.period.toNat)
    exec .holdover s = .next (((a.modTbs fun t => { t with role := 3, aligned := false, alignRun := 0 }).modTime fun t =>
      { t with steer := 0 }).raise .tbsHoldover 0))

/-- A write that the access tables admit and that is not of 4 bytes, or whose address is not a multiple of 4, or whose
address has no register, is answered DECODE and changes nothing but the answer; a read of a misaligned or unassigned
address likewise, and it returns no data. An aligned 4-byte write of a register that is assigned completes with OK or
BUSY, and an aligned read of one completes with OK and its value, or the value latched for the reader. An address beyond the last CSR block is answered DECODE for every master.
One register of each type of Table 0.5. RO: a write of TBS_STATUS is answered OK and changes nothing. RW:
PWR_WAKE_IN_LO takes the value written. W1C: ones written to TBS_OVERRUN_LO clear their sticky bits and zeros leave
theirs. RC: a read of TBS_OVERRUN_COUNT, of EVT_LOST_COUNT and of PWR_STEP_WAIT_COUNT returns the count and clears it.
WO: TBS_ACT_CMD reads 0. Reserved bits written are ignored: EVT_TRIG_CFG_0 keeps MODE, ACTIVE and WIDTH alone. (R6,
R7, R8, R9, R10, R186) -/
def Obligations.CsrAccess : Prop :=
  ((∀ s m a (len : BitVec 12) v, BitVec.toNat (a : Addr) < 0x1200000 → s.admitsWrite m a = true →
    (len ≠ 3 ∨ a.toNat % 4 ≠ 0 ∨ s.csrRaw m a.toNat = none) → exec (.csrWrite m a len v) s = .next (s.answer m .decode 0)) ∧
  (∀ s m a, BitVec.toNat (a : Addr) < 0x1200000 → s.admitsRead m a = true → (a.toNat % 4 ≠ 0 ∨ s.csrRaw m a.toNat = none) →
    exec (.rcRead m a) s = .next (s.answer m .decode 0) ∧ exec (.latchedLoRead m a) s = .next (s.answer m .decode 0)) ∧
  (∀ s m a len v, s.on = true → 0x1200000 ≤ BitVec.toNat (a : Addr) →
    exec (.csrWrite m a len v) s = .next (s.answer m .decode 0) ∧ exec (.rcRead m a) s = .next (s.answer m .decode 0) ∧
      exec (.latchedLoRead m a) s = .next (s.answer m .decode 0)) ∧
  (∀ s m a v w, BitVec.toNat (a : Addr) < 0x1200000 → a.toNat % 4 = 0 → s.csrRaw m a.toNat = some w →
    (s.admitsWrite m a = true → ∃ t, exec (.csrWrite m a 3 v) s = .next t ∧ (t.bus = ⟨m, .ok, 0⟩ ∨ t.bus = ⟨m, .busy, 0⟩)) ∧
    (s.admitsRead m a = true → ∀ c ∈ [Instr.rcRead m a, .latchedLoRead m a], ∃ t, exec c s = .next t ∧
      t.bus = ⟨m, .ok, if latched a.toNat then s.latch.getD (64 * a.toNat + m.toNat) 0 else w⟩))) ∧
  ((∀ s m v, s.admitsWrite m 0x0 = true → exec (.csrWrite m 0x0 3 v) s = .next (s.answer m .ok 0)) ∧
  (∀ s m v, s.admitsWrite m 0x200038 = true →
    exec (.csrWrite m 0x200038 3 v) s = .next ((s.modPwr fun p => { p with wakeInLo := v }).answer m .ok 0)) ∧
  (∀ s m v, s.admitsWrite m 0x60 = true → exec (.csrWrite m 0x60 3 v) s = .next ((s.modTbs fun t =>
    { t with overrun := t.overrun &&& ~~~BitVec.setWidth 50 (v : Word) }).answer m .ok 0)) ∧
  (∀ s m, s.admitsRead m 0x68 = true → exec (.rcRead m 0x68) s =
    .next ((s.modTbs fun t => { t with overrunCount := 0 }).answer m .ok s.tbs.overrunCount)) ∧
  (∀ s m, s.admitsRead m 0x1000010 = true → exec (.rcRead m 0x1000010) s =
    .next ((s.modEvt fun e => { e with lost := 0 }).answer m .ok s.evt.lost)) ∧
  (∀ s m, s.admitsRead m 0x20006C = true → exec (.rcRead m 0x20006C) s =
    .next ((s.modPwr fun p => { p with stepWaits := 0 }).answer m .ok s.pwr.stepWaits)) ∧
  (∀ s m, s.admitsRead m 0x94 = true → exec (.rcRead m 0x94) s = .next (s.answer m .ok 0)) ∧
  (∀ s m v, s.admitsWrite m 0x1000400 = true → exec (.csrWrite m 0x1000400 3 v) s = .next ((s.modPin 0 fun p =>
    { p with evLevel := v.getLsbD 0, evActive := v.getLsbD 1, evWidth := BitVec.extractLsb' 8 16 v }).answer m .ok 0)))

/-- A read of TBS_TIME_LO by a master returns bits 31:0 of system time and latches its bits 63:32 and its fraction for
that master, and no other master's latch changes. That master's reads of TBS_TIME_HI and TBS_TIME_FRAC return what is
latched for it. TBS_TICK_LO and TBS_TICK_HI work the same way. (R15) -/
def Obligations.LatchedReads : Prop :=
  (∀ s m, s.admitsRead m 0x10 = true → ∃ t, exec (.latchedLoRead m 0x10) s = .next t ∧
    t.bus = { master := m, err := .ok, data := BitVec.ofNat 32 s.sysNs } ∧ Frame [.bus, .latch] s t ∧
    t.latch.getD (64 * 0x14 + m.toNat) 0 = BitVec.ofNat 32 (s.sysNs / 2 ^ 32) ∧
    t.latch.getD (64 * 0x18 + m.toNat) 0 = BitVec.ofNat 32 (s.time.sys.toNat % 256) ∧
    ∀ (n : MasterId) a, n ≠ m → t.latch.getD (64 * a + n.toNat) 0 = s.latch.getD (64 * a + n.toNat) 0) ∧
  (∀ s m, s.admitsRead m 0x20 = true → ∃ t, exec (.latchedLoRead m 0x20) s = .next t ∧
    t.bus = { master := m, err := .ok, data := BitVec.setWidth 32 s.tbs.tick } ∧ Frame [.bus, .latch] s t ∧
    t.latch.getD (64 * 0x24 + m.toNat) 0 = BitVec.setWidth 32 (s.tbs.tick >>> 32) ∧
    ∀ (n : MasterId) a, n ≠ m → t.latch.getD (64 * a + n.toNat) 0 = s.latch.getD (64 * a + n.toNat) 0) ∧
  (∀ s m, (s.admitsRead m 0x14 = true → exec (.rcRead m 0x14) s = .next (s.answer m .ok (s.latch.getD (64 * 0x14 + m.toNat) 0))) ∧
    (s.admitsRead m 0x18 = true → exec (.rcRead m 0x18) s = .next (s.answer m .ok (s.latch.getD (64 * 0x18 + m.toNat) 0))) ∧
    (s.admitsRead m 0x24 = true → exec (.rcRead m 0x24) s = .next (s.answer m .ok (s.latch.getD (64 * 0x24 + m.toNat) 0))))

/-- A TRIG pulse and an event pulse end at their time and leave the pin its level. A stamped rising edge on a pin of a
powered bank stores system time, sets NEW, and OVERWRITE where NEW was still set; a falling one sets the level to 0.
The current limit of an open-drain pin sets its sticky bit, and reports it the first time. The loss of a VCCO of a
trigger bank below its threshold clears its inputs and is reported; a return above its threshold sets its bit. A Sett's single-bit errors add to the counter
and the bucket, which resets and reports at THRESH; a double-bit error sets the den's sticky bit. (R28, R80, R136,
R137, R220, R223, R392) -/
def Obligations.Pins : Prop :=
  (∀ s (pin : Fin 16) v t0, (s.pinAt pin).pulse = some (v, t0) →
    exec (.trigPulseEnd pin) s = .next ((s.advanceTo t0).modPin pin fun p => { p with pulse := none })) ∧
  (∀ s (pin : Fin 16) t0, (s.pinAt pin).ev = some (some t0) →
    exec (.eventPulseEnd pin) s = .next ((s.advanceTo t0).modPin pin fun p => { p with ev := none })) ∧
  (∀ s (pin : Fin 16), s.on = true → s.pwr.vcco.getLsbD (12 + pin.val / 4) = true → (s.pinAt pin).stampEdge.getLsbD 0 = true →
    (s.pinAt pin).wakeEdge = 0 → ∃ t, exec (.trigInputEdge pin true) s = .next t ∧ Frame [.ioc] s t ∧
      (t.pinAt pin).stamp = BitVec.ofNat 64 s.sysNs ∧ t.ioc.stampNew = setBit s.ioc.stampNew pin true ∧
      t.ioc.level = setBit s.ioc.level pin true ∧
      t.ioc.overwrite = if s.ioc.stampNew.getLsbD pin then setBit s.ioc.overwrite pin true else s.ioc.overwrite) ∧
  (∀ s (pin : Fin 16), s.on = true → s.pwr.vcco.getLsbD (12 + pin.val / 4) = true → (s.pinAt pin).stampEdge = 0 →
    (s.pinAt pin).wakeEdge = 0 →
    exec (.trigInputEdge pin false) s = .next (s.modIoc fun i => { i with level := setBit i.level pin false })) ∧
  (∀ s (pin : Fin 16), s.on = true → (s.pinAt pin).od = true → s.ioc.limit.getLsbD pin = false →
    exec (.trigCurrentLimit pin) s = .next ((s.modIoc fun i => { i with limit := setBit i.limit pin true }).raise .iocTrigLimit
      (BitVec.ofNat 32 pin))) ∧
  (∀ s (bank : Fin 16) mv, s.on = true → 12 ≤ bank.val → s.pwr.vcco.getLsbD bank = true → mv < railLostBelow (7 + bank) →
    ∃ t, exec (.vccoLost bank mv) s = .next t ∧ Frame [.pwr, .ioc, .evt] s t ∧ t.pwr = { s.pwr with vcco := setBit s.pwr.vcco bank false } ∧
      (∀ n : Fin 16, t.ioc.level.getLsbD n = (s.ioc.level.getLsbD n && decide (n.val / 4 ≠ bank.val - 12))) ∧
      t.evt = s.evt.push (s.record none .pwrVccoLost (BitVec.ofNat 32 bank))) ∧
  (∀ s (bank : Fin 16) mv, railGoodAbove (7 + bank) < mv →
    exec (.vccoReturn bank mv) s = .next (s.modPwr fun p => { p with vcco := setBit p.vcco bank true })) ∧
  (∀ s (d : Fin 48) n, s.on = true → 0 < n → s.brw.settThresh ≠ 0 → ∃ t, exec (.settEccError d n false) s = .next t ∧
    Frame [.brw, .evt] s t ∧ t.brw.settCe = satAdd s.brw.settCe n ∧ t.brw.settUe = s.brw.settUe ∧
    (if (s.brw.settBucket.getD d 0).toNat + n < s.brw.settThresh.toNat then
      (t.brw.settBucket.getD d 0).toNat = (s.brw.settBucket.getD d 0).toNat + n ∧ t.evt = s.evt
    else t.brw.settBucket.getD d 0 = 0 ∧ t.evt = s.evt.push (s.record none .brwSettCeBurst (BitVec.ofNat 32 d)))) ∧
  (∀ s (d : Fin 48), s.on = true → s.brw.settUe.getLsbD d = false → exec (.settEccError d 0 true) s =
    .next ((s.modBrw fun w => { w with settUe := setBit w.settUe d true }).raise .brwSettUe (BitVec.ofNat 32 d)))

/-- SYNC latches whole ns of system time and counts. An AON window that counts 47 to 56 cycles adds to the run and the
eighth judges AON good; in SENSE any other window clears both, and in any later mode but STOP it stops the device with
cause 1 and reports a good AON's loss. A reference window counted 795 to 843 adds to the run, the eighth accepted one
judges the source good, and anything else clears the run. A source that was not good and is not yet is only counted, and
a missing edge does nothing to it; a watched source that was good is judged failed by one. (R51, R52, R53, R59, R61) -/
def Obligations.OwlJudgement : Prop :=
  (∀ s, s.time.runs = true → exec .syncEdge s =
    .next (s.modClk fun c => { c with sync := BitVec.ofNat 64 s.sysNs, syncCount := satInc c.syncCount })) ∧
  (∀ s (n : BitVec 16), s.on = true → 47 ≤ n.toNat → n.toNat ≤ 56 → exec (.owlAonWindow n) s =
    .next (s.modClk fun c => { c with aonCount := n, aonRun := min 8 (c.aonRun + 1), aonOk := c.aonOk || decide (7 ≤ c.aonRun) })) ∧
  (∀ s (n : BitVec 16), s.mode = .sense → (n.toNat < 47 ∨ 56 < n.toNat) →
    exec (.owlAonWindow n) s = .next (s.modClk fun c => { c with aonCount := n, aonRun := 0, aonOk := false })) ∧
  (∀ s (n : BitVec 16), s.on = true → s.mode ≠ .sense → s.mode ≠ .stop → (n.toNat < 47 ∨ 56 < n.toNat) →
    ∃ t, exec (.owlAonWindow n) s = .next t ∧ t.mode = .stop ∧ t.pwr.cause = .stop ∧ t.pwr.causeFrom = s.mode ∧ t.clk.aonOk = false ∧
      t.evt = ((if s.clk.aonOk then s.evt.push (s.record none .clkAonFail 0) else s.evt).push (s.record none .pwrStop 1))) ∧
  (∀ s (n : BitVec 16), s.on = true → 795 ≤ n.toNat → n.toNat ≤ 843 → s.clk.refRun < 7 →
    exec (.owlRefWindow 0 n) s = .next (s.modClk fun c => { c with refRun := c.refRun + 1, refCount := n })) ∧
  (∀ s (n : BitVec 16), s.on = true → 795 ≤ n.toNat → n.toNat ≤ 843 → s.clk.refRun = 7 → s.clk.good.getLsbD 0 = false →
    ∃ t, exec (.owlRefWindow 0 n) s = .next t ∧ t.clk = { s.clk with
      refRun := 8, refCount := n, good := setBit s.clk.good 0 true, failed := setBit s.clk.failed 0 false } ∧
      t.evt = (if s.clk.failed.getLsbD 0 then s.evt.push (s.record none .clkGood 0) else s.evt) ∧ Frame [.clk, .evt, .mem, .brw] s t) ∧
  (∀ s (n : BitVec 16), s.on = true → (n.toNat < 795 ∨ 843 < n.toNat) → s.clk.good.getLsbD 2 = false →
    exec (.owlRefWindow 2 n) s = .next (s.modClk fun c => { c with pcieRun := 0, pcieCount := n })) ∧
  (∀ s (src : Fin 3), s.clk.good.getLsbD src = false → exec (.owlMissingEdge src) s = .next s) ∧
  (∀ s, s.on = true → s.clk.good.getLsbD 0 = true → s.watched 0 = true →
    ∃ t, exec (.owlMissingEdge 0) s = .next t ∧ t.clk.good.getLsbD 0 = false ∧ t.clk.fail.getLsbD 0 = true ∧
      t.clk.failed.getLsbD 0 = true)

/-- The lock of the CFG PLL on a good REFCLK sets its bit. The loss of a watched PLL in RUN is recorded in its sticky bit
and the counter, reported, and under the RESET policy makes a restart pending and stops FAB, under SAFE-HOLD takes the
device to HOLD with the source awaited. A pending restart with every failed source good again and its PLLs locked enters
LOAD with cause 3 and the slots to be tried anew; HOLD with every awaited source good, its PLLs locked and ALIGNED 1 goes
to RELEASE. A crossing into a stopped domain whose source runs starts it, and counts in SLEEP; 1 µs after its last
traffic it is gated again. (R54, R57, R58, R60, R71, R72) -/
def Obligations.ClockFailures : Prop :=
  (∀ s, s.on = true → s.clk.good.getLsbD 0 = true → s.pwr.chilled = false →
    ∃ t, exec (.pllLock 6) s = .next t ∧ Frame [.clk, .evt, .mem, .brw, .bdg] s t ∧
      t.clk = { s.clk with good := setBit s.clk.good 6 true, failed := setBit s.clk.failed 6 false } ∧
      t.evt = if s.clk.failed.getLsbD 6 then s.evt.push (s.record none .clkGood 6) else s.evt) ∧
  (∀ s (n : Fin 64), s.mode = .run → n.val = 6 ∨ n.val = 7 ∨ n.val = 3 → s.clk.good.getLsbD n = true → s.safeHold n = false →
    ∃ t, exec (.pllLoss n) s = .next t ∧ t.clk.good.getLsbD n = false ∧ t.clk.fail = setBit s.clk.fail n true ∧
      t.clk.failCount = satInc s.clk.failCount ∧ t.clk.failed = setBit s.clk.failed n true ∧ t.pwr.resetPending = true ∧
      t.clk.fabRows = 0 ∧ t.mode = .run ∧ t.evt = s.evt.push (s.record none .clkFail (ofFields [(0, n.val), (8, 7)]))) ∧
  (∀ s (n : Fin 64), s.mode = .run → n.val = 6 ∨ n.val = 7 ∨ n.val = 3 → s.clk.good.getLsbD n = true → s.safeHold n = true →
    ∃ t, exec (.pllLoss n) s = .next t ∧ t.clk.fail = setBit s.clk.fail n true ∧ t.mode = .hold ∧
      t.clk.awaitHold = setBit s.clk.awaitHold n true ∧ t.pwr.blocked = true ∧ t.pwr.outputsOn = false) ∧
  (∀ s, s.on = true → s.pwr.resetPending = true → s.clk.failed = 0 → s.recovered s.clk.awaitReset = true →
    ∃ t, exec .resetRestart s = .next t ∧ t.mode = .load ∧
    t.pwr.cause = .clockReset ∧ t.pwr.causeFrom = s.mode ∧ t.pwr.resetPending = false ∧ t.pwr.restarted = true ∧
    t.pwr.slotTable = none ∧ t.clk.awaitHold = 0 ∧ (t.pairAt 1).inReset = true ∧ t.bdg.state = .stopped) ∧
  (∀ s, s.on = true → (s.pwr.resetPending = false ∨ s.clk.failed ≠ 0) → exec .resetRestart s = .next s) ∧
  (∀ s, s.mode = .hold → s.pwr.resetPending = false → s.recovered s.clk.awaitHold = true → s.tbs.aligned = true →
    ∃ t, exec .holdExit s = .next t ∧ t.mode = .release ∧ t.clk.awaitHold = 0 ∧ t.pwr.rel.next = 1) ∧
  (∀ s, (s.mode ≠ .hold ∨ s.clk.awaitHold &&& s.clk.failed ≠ 0 ∨ s.tbs.aligned = false) → exec .holdExit s = .next s) ∧
  (∀ s d, s.on = true → s.running d = false → s.mode ≠ .deep → s.domainSrc d = true →
    ∃ t, exec (.crossingWakeRequest d) s = .next t ∧ Frame [.clk, .mem, .brw, .bdg] s t ∧ t.clk = { s.clk with
      woken := s.clk.woken ++ [(d, s.now)], wakeCount := if s.mode = .sleep then satInc s.clk.wakeCount else s.clk.wakeCount }) ∧
  (∀ s d t0, s.clk.woken = [(d, t0)] → ∃ t, exec (.domainIdleRegate d) s = .next t ∧ t.now = max s.now (t0 + 1000) ∧
    t.clk.woken = [] ∧ t.evt = s.evt)

/-- When a raise's voltage write completes, the sequencer goes on to reading; a read within 10 mV of the voltage commanded
starts the settle, one outside is repeated 2,000 ns later; a failed frame, or 46,000 ns without a read in range, gives
the change up with CLK_OP_FAIL and writes the higher OP's voltage to the regulator. 2,000 ns after the read the settle
ends, and the switch is requested once the standby PLL is locked. (R65, R68, R69) -/
def Obligations.Dvfs : Prop :=
  (∀ s mv, s.on = true → s.clk.avs = .write → s.clk.phase = .raiseWrite → exec (.avsFrameDone true mv) s =
    .next (s.modClk fun c => { c with avs := .none, avsAt := s.now, phase := .raiseRead })) ∧
  (∀ s mv, s.on = true → s.clk.avs = .read → s.clk.phase = .raiseRead → BitVec.toNat mv ≤ s.clk.volt.toNat + 10 →
    s.clk.volt.toNat ≤ mv.toNat + 10 → exec (.avsFrameDone true mv) s =
      .next (s.modClk fun c => { c with avs := .none, vout := mv, avsAt := s.now, phase := .settle })) ∧
  (∀ s mv, s.on = true → s.clk.avs = .read → s.clk.phase = .lowerRead → BitVec.toNat mv ≤ s.clk.volt.toNat + 10 →
    s.clk.volt.toNat ≤ mv.toNat + 10 → exec (.avsFrameDone true mv) s =
      .next (s.modClk fun c => { c with avs := .none, vout := mv, avsAt := s.now, phase := .idle })) ∧
  (∀ s mv, s.on = true → s.clk.avs = .read → s.clk.phase = .raiseRead →
    (s.clk.volt.toNat + 10 < BitVec.toNat mv ∨ mv.toNat + 10 < s.clk.volt.toNat) →
    exec (.avsFrameDone true mv) s = .next (s.modClk fun c => { c with avs := .none, vout := mv })) ∧
  (∀ s mv, s.on = true → s.clk.avs = .read → s.clk.phase = .raiseRead → s.clk.opFrom.toNat < s.clk.target.toNat →
    exec (.avsFrameDone false mv) s = .next ((s.modClk fun c => { c with
      phase := .idle, avs := .write, avsAt := s.now, standbyLocked := false, volt := BitVec.ofNat 16 (s.opVolt c.target.toNat) }).raise
        .clkOpFail (ofFields [(0, s.clk.op.toNat), (2, s.clk.target.toNat)]))) ∧
  (∀ s, s.clk.phase = .raiseRead → s.clk.avs = .none → exec .avsVoltagePoll s =
    .next ((s.advanceTo (s.clk.avsAt + 2000)).modClk fun c => { c with avs := .read, avsAt := max s.now (c.avsAt + 2000) })) ∧
  (∀ s, s.clk.phase = .settle → s.clk.standbyLocked = false → exec .opSettleDone s =
    .next ((s.advanceTo (s.clk.avsAt + 2000)).modClk fun c => { c with phase := .raiseSwitch })) ∧
  (∀ s, s.clk.phase = .raiseRead → s.clk.opFrom.toNat < s.clk.target.toNat → ∃ t, exec .opChangeTimeout s = .next t ∧
    t.now = max s.now (s.clk.opAt + 46000) ∧ t.clk.phase = .idle ∧ t.clk.avs = .write ∧ t.clk.avsAt = t.now ∧
    t.clk.volt = BitVec.ofNat 16 (max 700 (700 + 50 * s.clk.target.toNat - 5 * s.trim)) ∧ t.evt.raised = s.evt.raised + 1)

/-- VCC_AON above its threshold takes OFF to RAMP with no switch closed; its loss takes any mode to OFF and keeps the fuse
array (when no burn runs), the Ledger's cells (when none is being written) and its own header. RAIL_GOOD sets the rail's
bit. In RAMP with every rail good a switch step closes every 1,280 ns, and with the 96th the device goes to SENSE if the
pin is high. The loss of a rail after RAMP goes to RAMP with cause 2; in RAMP the staging starts over. A voltage on the
other side of its threshold changes nothing. The reset pin low in RUN takes effect without leaving the mode; its rise
enters SENSE with cause 1 and reports the mode left. With AON judged good, SENSE ends in LOCK and nothing else changes.
With REFCLK good, the TMB, CFG, MGT and driving NOC PLLs locked, OP0 commanded and the election closed, LOCK ends in
LOAD, with no image candidate and Brock-B in reset. Until then each row leaves the state as it is. (R20, R74, R75, R76,
R78, R79, R81, R82, R98, R362) -/
def Obligations.RailsSenseLock : Prop :=
  ((∀ s mv, s.mode = .off → railGoodAbove 0 < mv → exec (.vccAonGood mv) s = .next (s.modPwr fun p =>
    { p with prev := .off, mode := .ramp, rails := setBit p.rails 0 true, switches := 0 })) ∧
  (∀ s mv, mv < railLostBelow 0 → ∃ t, exec (.vccAonLost mv) s = .next t ∧ t.mode = .off ∧ t.pwr.prev = s.mode ∧ t.pending = s.pending ∧
    (s.fus.burning = none → t.fus.array = s.fus.array) ∧ (s.evt.erasing = false → s.evt.fifo = [] → t.evt.recs = s.evt.recs) ∧
    t.evt.hdrs = s.evt.hdrs ∧ t.evt.queue = [] ∧ t.ram = [] ∧ t.bdg.cram = {}) ∧
  (∀ s (r : Fin 23) mv, railGoodAbove r < mv → exec (.railGood r mv) s = .next (s.modPwr fun p =>
    if r.val < 7 then { p with rails := setBit p.rails r true } else { p with vcco := setBit p.vcco (r.val - 7) true })) ∧
  (∀ s (r : Fin 7) mv, railLostBelow r ≤ mv → exec (.railLost r mv) s = .next s) ∧
  (∀ s, s.mode = .ramp → s.railsGood = true → s.pwr.switches < 95 → exec .powerSwitchStep s =
    .next ((s.advance 1280).modPwr fun p => { p with switches := p.switches + 1 })) ∧
  (∀ s, s.mode = .ramp → s.railsGood = true → s.pwr.switches = 95 → s.pwr.pinHigh = true →
    ∃ t, exec .powerSwitchStep s = .next t ∧ t.mode = .sense ∧ t.pwr.switches = 96 ∧ t.fus.latched = t.fus.array ∧
      t.now = s.now + 1280) ∧
  (∀ s (r : Fin 7) mv, r.val ≠ 0 → mv < railLostBelow r → s.on = true → s.pwr.rails.getLsbD r = true →
    ∃ t, exec (.railLost r mv) s = .next t ∧ t.mode = .ramp ∧
    t.pwr.cause = .railLoss ∧ t.pwr.causeFrom = s.mode ∧ t.pwr.switches = 0 ∧ t.pwr.rails = setBit s.pwr.rails r false) ∧
  (∀ s (r : Fin 7) mv, r.val ≠ 0 → mv < railLostBelow r → s.mode = .ramp → exec (.railLost r mv) s =
    .next (s.modPwr fun p => { p with rails := setBit p.rails r false, switches := 0 })) ∧
  (∀ s, s.mode = .run → s.fus.burning = none → exec .pinResetAssert s =
    .next (s.modPwr fun p => { p with pinHigh := false, pinReset := true })) ∧
  (∀ s, s.mode = .run → s.pwr.pinReset = true → ∃ t, exec .pinResetRelease s = .next t ∧ t.mode = .sense ∧ t.pwr.cause = .pinReset ∧
    t.pwr.causeFrom = .run ∧ t.pwr.pinReset = false ∧ t.fus.latched = t.fus.array ∧ (t.pairAt 1).inReset = true)) ∧
  ((∀ s, s.mode = .sense → exec .senseComplete s = .next (if s.clk.aonOk then s.modPwr fun p => { p with prev := .sense, mode := .lock } else s)) ∧
  (∀ s, s.mode = .lock → s.clk.good.getLsbD 0 = true → s.clk.good.getLsbD 3 = true → s.clk.good.getLsbD 6 = true →
    s.clk.good.getLsbD 7 = true → s.clk.good.getLsbD (if s.clk.standbyB then 4 else 5) = true → s.clk.op0Done = true →
    s.tbs.elected = true → ∃ t, exec .lockComplete s = .next t ∧ t.mode = .load ∧ t.pwr.prev = .lock ∧ t.pwr.candidate = none ∧
      t.pwr.slotTable = none ∧ t.pwr.restarted = false ∧ (t.pairAt 1).inReset = true ∧ t.pwr.blocked = true ∧ t.pwr.loadAt = s.now) ∧
  (∀ s, (s.clk.good.getLsbD 0 = false ∨ s.clk.op0Done = false ∨ s.tbs.elected = false) → exec .lockComplete s = .next s))

/-- A write of PWR_MODE_REQ joins the writes that wait for their edge. An enabled wake source in RUN is pending until the
next edge; in SLEEP it sets its cause bit, is reported and starts the wake. A write of PWR_WAKE_IN_HI with a delay of
at least 1 and below 2^48 AON cycles arms the timer for that many times 20 ns; 0 disarms it. At its expiry source 0
fires. PWR_STOP_REQ with its key in RUN stops with cause 6, and with any other key does nothing. (R92, R94, R96, R97,
R11) -/
def Obligations.WakesAndStop : Prop :=
  (∀ s m v, s.admitsWrite m 0x200004 = true → exec (.pwrModeReqWrite m v) s = .next ((s.modPwr fun p =>
    { p with modeReq := ofFields [(0, field v 0 2)], modeReqQ := p.modeReqQ ++ [{ time := s.now, val := ofFields [(0, field v 0 2)] }] }).answer
      m .ok 0)) ∧
  (∀ s (src : Fin 6), s.mode = .run → s.pwr.wakeEn.getLsbD src = true →
    exec (.wakeSource src) s = .next (s.modPwr fun p => { p with wakePend := setBit p.wakePend src true })) ∧
  (∀ s (src : Fin 6), s.mode = .sleep → s.pwr.wakeEn.getLsbD src = true → s.pwr.waking = none → ∃ t, exec (.wakeSource src) s = .next t ∧
    t.pwr.wakeCause = setBit s.pwr.wakeCause src true ∧ t.pwr.waking = some (some (s.now + 140)) ∧ t.mode = .sleep) ∧
  (∀ s (src : Fin 6), s.on = true → s.pwr.wakeEn.getLsbD src = false → exec (.wakeSource src) s = .next s) ∧
  (∀ s m v, s.admitsWrite m 0x20003C = true → 0 < BitVec.toNat v * 2 ^ 32 + s.pwr.wakeInLo.toNat → v.toNat < 65536 →
    exec (.wakeTimerArm m v) s = .next ((s.modPwr fun p =>
      { p with wakeInHi := v, wakeRejected := false
               wakeAt := some (s.now + 20 * (v.toNat * 2 ^ 32 + s.pwr.wakeInLo.toNat)) }).answer m .ok 0)) ∧
  (∀ s m, s.admitsWrite m 0x20003C = true → s.pwr.wakeInLo = 0 → exec (.wakeTimerArm m 0) s =
    .next ((s.modPwr fun p => { p with wakeInHi := 0, wakeRejected := false, wakeAt := none }).answer m .ok 0)) ∧
  (∀ s t0, s.mode = .run → s.pwr.wakeAt = some t0 → s.pwr.wakeEn.getLsbD 0 = true → exec .wakeTimerExpire s =
    .next ((s.advanceTo t0).modPwr fun p => { p with wakeAt := none, wakePend := setBit p.wakePend 0 true })) ∧
  (∀ s m v, s.admitsWrite m 0x200008 = true → s.mode = .run → field v 0 16 = 0xA5C3 → ∃ t, exec (.pwrStopReq m v) s = .next t ∧
    t.mode = .stop ∧ t.pwr.prev = .run ∧ t.pwr.cause = .stop ∧ t.pwr.outputsOn = false ∧ (t.pairAt 1).inReset = true ∧
    t.evt = s.evt.push (s.record none .pwrStop 6) ∧ t.bus.err = .ok) ∧
  (∀ s m v, s.admitsWrite m 0x200008 = true → field v 0 16 ≠ 0xA5C3 → exec (.pwrStopReq m v) s = .next (s.answer m .ok 0))

/-- The oldest waiting step is granted as soon as the budget suffices: a bank's clear whose cost of 250 mA the budget
holds starts at once and the cost is subtracted. A write of PWR_STEP_DEPTH from 500 to 3,500 takes effect and clamps
the budget; any other value is ignored. 64 ns after a group of a stage the next group is requested, and granted when
nothing waits and the budget holds its cost. A window records its power and the peak, adds to the run above or at or
below 90 % of the cap, and changes nothing else while both runs are short. The 100th window in a row above the cap
lowers the governor's limit to one below the running OP, to take effect at the next edge, and is counted and reported;
at OP_MIN it is reported once. The 10,000th at or below 90 % raises the limit by one, if it lies below the ceiling,
and reports when the ceiling is reached. (R89, R95, R100, R101, R102, R103, R104) -/
def Obligations.StepBudgetAndCap : Prop :=
  ((∀ s b r, s.pwr.steps = (.bankClear b, 250) :: r → 250 ≤ s.pwr.tokens.toNat → BudgetKept s →
    0 < s.pwr.didt.toNat → ∃ t, exec .stepGrant s = .next t ∧ Frame [.pwr, .brw, .clk, .brk, .time] s t ∧ t.pwr = { s.pwr with
      steps := r, tokens := BitVec.ofNat 12 (s.pwr.tokens.toNat - 250) } ∧ t.now = s.now ∧
      (t.bankAt b).state = .clearing ∧ (t.bankAt b).queued = false ∧ (t.bankAt b).clearAt = s.now ∧ ∀ k, k ≠ b → t.bankAt k = s.bankAt k) ∧
  (∀ s m v, s.admitsWrite m 0x200064 = true → exec (.stepDepthWrite m v) s = .next ((if 500 ≤ field v 0 12 ∧ field v 0 12 ≤ 3500 then
    s.modPwr fun p => { p with depth := BitVec.ofNat 12 (field v 0 12), tokens := BitVec.ofNat 12 (min (field v 0 12) p.tokens.toNat) }
    else s).answer m .ok 0)) ∧
  (∀ s, s.pwr.rel.stage = 1 → 0 < s.pwr.rel.groups → s.pwr.rel.groups < 7 → s.pwr.steps = [] → s.stepCost (.release 1 s.pwr.rel.groups) ≤ s.pwr.tokens.toNat →
    BudgetKept s →
    ∃ t, exec .releaseGroup s = .next t ∧ t.now = max s.now (s.pwr.rel.groupAt + 64) ∧ t.pwr.rel.groups = s.pwr.rel.groups + 1 ∧
      t.clk.fabRows = setBit s.clk.fabRows s.pwr.rel.groups true ∧ t.pwr.rel.groupAt = t.now)) ∧
  ((∀ s (d : BitVec 16), s.on = true → s.pwr.capOver < 99 → s.pwr.capUnder < 9999 → exec (.powerWindow d) s = .next (s.modPwr fun p =>
    { p with
      power := d, peak := if p.peak.toNat < d.toNat then d else p.peak
      capOver := if s.effCap ≠ 0 ∧ 10 * s.effCap < d.toNat then p.capOver + 1 else 0
      capUnder := if s.effCap = 0 ∨ d.toNat ≤ 9 * s.effCap then p.capUnder + 1 else 0
      capAtMin := decide (s.effCap ≠ 0 ∧ 10 * s.effCap < d.toNat) && p.capAtMin })) ∧
  (∀ s (d : BitVec 16), s.on = true → s.pwr.capOver = 99 → s.effCap ≠ 0 → 10 * s.effCap < d.toNat → s.clk.opMin.toNat < s.clk.op.toNat →
    ∃ t, exec (.powerWindow d) s = .next t ∧ t.clk = { s.clk with govLimit := s.clk.op - 1, govDue := some (s.clk.op - 1) } ∧
      t.pwr.capOver = 0 ∧ t.pwr.capCount = satInc s.pwr.capCount ∧ t.pwr.power = d ∧
      t.evt = s.evt.push (s.record none .pwrCapLower (BitVec.setWidth 32 (s.clk.op - 1)))) ∧
  (∀ s (d : BitVec 16), s.on = true → s.pwr.capOver = 99 → s.effCap ≠ 0 → 10 * s.effCap < d.toNat → s.clk.op.toNat ≤ s.clk.opMin.toNat →
    s.pwr.capAtMin = false → ∃ t, exec (.powerWindow d) s = .next t ∧ t.clk = s.clk ∧ t.pwr.capAtMin = true ∧
      t.evt = s.evt.push (s.record none .pwrCapAtMin 0)) ∧
  (∀ s (d : BitVec 16), s.on = true → s.pwr.capUnder = 9999 → s.effCap ≠ 0 → d.toNat ≤ 9 * s.effCap → s.clk.govLimit.toNat < s.ceiling →
    ∃ t, exec (.powerWindow d) s = .next t ∧ t.clk.govLimit.toNat = s.clk.govLimit.toNat + 1 ∧ t.pwr.capUnder = 0 ∧
      t.evt = if s.clk.govLimit.toNat + 1 = s.ceiling then s.evt.push (s.record none .pwrCapClear 0) else s.evt))

/-- While the section is awaited in LOCK, a good section gives the device its number, its role, SPN_NOTICE_LEAD, its span
links (an entry outside the quads of R255 or with width code 3 configures none: the model's choice, log 143) and the
routes, and AVSBus goes on with the rate; a bad one with no further VALID slot leaves the defaults of
R254: role AUTO, number 0, and OP0's voltage commanded. Either way the section is settled. After the checks, the end
of a populated channel's training marks it trained; success enables it, failure leaves it disabled and is reported.
Once the operating point is reached, every populated channel is trained and ALIGNED is 1, VERIFY ends in RELEASE with
stage 1 armed and the Badger running or paused; until then VERIFY_END does nothing. (R20, R87, R88, R165, R228, R254) -/
def Obligations.SystemAndVerify : Prop :=
  ((∀ s bytes, s.lockReads = true → s.pwr.slotTable.isSome = true → sysOk bytes = true →
    ∃ t, exec (.systemSectionRead bytes) s = .next t ∧ t.tbs.devNum = BitVec.ofNat 8 (byteAt bytes 0) ∧
      t.tbs.imgRole = BitVec.ofNat 2 (byteAt bytes 1) ∧ t.spn.lead = BitVec.ofNat 24 (leAt bytes 4 4) ∧
      (∀ k < 8, let v := leAt bytes (8 + 2 * k) 2
        if linkCfgOk k v then (t.linkAt k).cfg = BitVec.ofNat 9 v else (t.linkAt k).configured = false) ∧
      (∀ n < 256, t.spn.route.getD n 15 = BitVec.ofNat 4 (byteAt bytes (0x40 + n))) ∧ t.pwr.sysTaken = true ∧
      t.clk.avs = .rate ∧ t.pwr.sysSection = some (bytes.take 0x800)) ∧
  (∀ s bytes, s.lockReads = true → s.pwr.slotTable.isSome = true → sysOk bytes = false →
    (∀ j < s.slotCount, s.pwr.sysSlot < j → (s.slotAt j).1 = false) →
    ∃ t, exec (.systemSectionRead bytes) s = .next t ∧ t.tbs.devNum = 0 ∧ t.tbs.imgRole = 2 ∧ t.pwr.sysTaken = true ∧
      t.pwr.sysSection = none ∧ t.clk.avs = .write ∧ t.clk.volt = BitVec.ofNat 16 (max 700 (700 - 5 * s.trim))) ∧
  (∀ s bytes j, s.lockReads = true → s.pwr.slotTable.isSome = true → sysOk bytes = false → s.pwr.sysSlot < j → j < s.slotCount →
    (s.slotAt j).1 = true → (∀ i < j, s.pwr.sysSlot < i → (s.slotAt i).1 = false) →
    exec (.systemSectionRead bytes) s = .next (s.modPwr fun p => { p with sysSlot := j }))) ∧
  ((∀ s (ch : Fin 4), s.mode = .verify → s.pwr.checksOk = true → s.pwr.resetPending = false → s.populated.contains ch.val = true →
    s.pwr.trained.getLsbD ch = false → (s.chAt ch).portQ = [] →
    exec (.ddrTrainingDone ch true) s = .next ((s.modPwr fun p => { p with trained := setBit p.trained ch true }).modCh ch fun c =>
      { c with enabled := true, patrolAt := s.now, patrolLast := s.now }) ∧
    exec (.ddrTrainingDone ch false) s = .next (((s.modPwr fun p => { p with trained := setBit p.trained ch true }).modCh ch fun c =>
      { c with enabled := false }).raise .memTrainFail (ofFields [(0, ch.val)]))) ∧
  (∀ s, s.mode = .verify → s.pwr.resetPending = false → s.verified = true → s.bdg.state = .stopped →
    ∃ t, exec .verifyEnd s = .next t ∧ t.mode = .release ∧ t.pwr.prev = .verify ∧ t.pwr.rel.next = 1 ∧ t.pwr.rel.complete = 0 ∧
      t.pwr.rel.dueTick = t.pwr.rel.tick ∧ (t.bdg.state = .running ∨ t.bdg.state = .paused) ∧ t.bdg.position = 0) ∧
  (∀ s, s.verified = false → exec .verifyEnd s = .next s))

/-- In LOAD, a good copy of the slot table (the backup, shown in BACKUP, when the primary is bad) is taken, with the read
mode the SFDP table allows, the configuration is cleared, and the first slot is tried when it is VALID; with both copies bad the device reports
CFG_NO_SLOT_TABLE and stops with cause 2. A slot whose read ends is rejected with the first reason that fails, shown
in its field of PWR_BOOT_STATUS and reported, or is written and VERIFY begins with it; the next slot starts on cleared
configuration, and with none left the device stops. VERIFY likewise rejects it, or accepts it: its parameters and safe states are those of the image, and the slot is the one running. (R83, R84, R85,
R86, R87) -/
def Obligations.LoadSlots : Prop :=
  (∀ s f a b tb bk, s.mode = .load → s.pwr.resetPending = false → s.pwr.slotTable = none → goodTable a b = some (tb, bk) → 0 < tb.count →
    (tb.slots.getD 0 (false, 0)).1 = true → ∃ t, exec (.slotTableRead f a b) s = .next t ∧ t.pwr.slotTable = some tb ∧ t.pwr.backup = bk ∧
      t.pwr.flash = flashModeOf f ∧ t.pwr.trySlot = 0 ∧ t.mode = .load ∧ t.bdg.cram = {} ∧ t.fab.sett = {} ∧ t.evt = s.evt) ∧
  (∀ s f a b, s.mode = .load → s.pwr.resetPending = false → s.pwr.slotTable = none → slotTableOk a = false → slotTableOk b = false →
    ∃ t, exec (.slotTableRead f a b) s = .next t ∧ t.mode = .stop ∧ t.pwr.backup = true ∧
      t.evt = (s.evt.push (s.record none .cfgNoSlotTable 0)).push (s.record none .pwrStop 2)) ∧
  (∀ s ok image, s.mode = .load → s.pwr.slotTable.isSome = true → s.pwr.resetPending = false → s.pwr.trySlot < 4 →
    ∃ t, exec (.slotReadComplete ok image) s = .next t ∧
      (if s.loadReason ok (s.slotAt s.pwr.trySlot).2.toNat image = 0 then
        t.mode = .verify ∧ t.pwr.prev = .load ∧ t.pwr.candidate = some image ∧ t.pwr.checksOk = false
      else field t.pwr.reasons (4 * s.pwr.trySlot) 4 = s.loadReason ok (s.slotAt s.pwr.trySlot).2.toNat image ∧
        (t.mode = .load ∧ t.bdg.cram = {} ∧ t.fab.sett = {} ∨ t.mode = .stop))) ∧
  (∀ s ok image, s.mode = .load → s.pwr.slotTable.isSome = true → s.pwr.resetPending = false → s.pwr.trySlot < 4 → ok = false →
    s.slotCount ≤ s.pwr.trySlot + 1 → ∃ t, exec (.slotReadComplete ok image) s = .next t ∧ t.mode = .stop ∧
      field t.pwr.reasons (4 * s.pwr.trySlot) 4 = 1 ∧
      t.evt = ((s.evt.push (s.record none .cfgSlotReject (ofFields [(0, s.pwr.trySlot), (8, 1)]))).push
        (s.record none .cfgNoImage 0)).push (s.record none .pwrStop 3)) ∧
  (∀ s l ok vcco, s.mode = .verify → s.pwr.resetPending = false → s.pwr.candidate = some l → s.pwr.trySlot < 4 →
    ∃ t, exec (.verifyChecksDone ok vcco) s = .next t ∧
      (if s.verifyReason l ok (slotTables (s.plainText l (lastEnd l))) = 0 then
        t.mode = .verify ∧ t.pwr.checksOk = true ∧ t.pwr.candidate = none ∧ t.pwr.slot = BitVec.ofNat 2 s.pwr.trySlot ∧
          t.img.buildId = BitVec.ofNat 64 (leAt l 0x18 8) ∧ t.ioc.safe = some t.img.safe
      else field t.pwr.reasons (4 * s.pwr.trySlot) 4 = s.verifyReason l ok (slotTables (s.plainText l (lastEnd l))) ∧
        (t.mode = .load ∧ t.bdg.cram = {} ∧ t.fab.sett = {} ∨ t.mode = .stop)))

/-- A start for a den below 48 that is not static, with nothing in the loader's way, makes the loader busy with it and the
shadow LOADING; for a static den it is refused with result 1, while the loader is busy with 2. An abort ends a running
load with result 10, the shadow FAILED, and DEN_LOAD_FAIL; with none running it does nothing. A load whose fetch, as
master 5, fails has result 8 and the error. Else a header check that fails gives its result with no frame written. Else the
frames are written, what they take of time passes, and the result is the first body check that fails, the shadow
FAILED and reported, or 0 with the shadow READY, its ID that of the plane image, and DEN_LOAD_DONE. A load ends not
busy. (R145, R146, R147, R175) -/
def Obligations.DenLoads : Prop :=
  (∀ s m v, s.admitsWrite m 0x40001C = true → field v 0 6 < 48 → (s.denAt (field (v : Word) 0 6)).isStatic = false → s.den.loadBusy = false →
    (s.denAt (field v 0 6)).draining = false → s.bdg.rlBusy = false → s.bdg.rlPend = 0 →
    ∃ t, exec (.denLoadStart m v) s = .next t ∧ Frame [.den, .bdg, .bus] s t ∧ t.den.loadBusy = true ∧ t.den.loadDen = BitVec.ofNat 6 (field v 0 6) ∧
      t.den.loadResult = 0 ∧ t.den.readback = v.getLsbD 9 ∧ t.den.curSrc = s.den.loadSrc ∧ t.den.curLen = s.den.loadLen ∧ t.den.loadAt = s.now ∧
      t.denAt (field v 0 6) = { s.denAt (field v 0 6) with shadow := .loading } ∧
      (∀ d, d ≠ field v 0 6 → t.denAt d = s.denAt d) ∧ t.bus = { master := m, err := .ok, data := 0 }) ∧
  (∀ s m v, s.admitsWrite m 0x40001C = true → field v 0 6 < 48 → (s.denAt (field (v : Word) 0 6)).isStatic = true →
    exec (.denLoadStart m v) s = .next ((s.modDenBlk fun b => { b with loadResult := 1 }).answer m .ok 0)) ∧
  (∀ s m v, s.admitsWrite m 0x40001C = true → field v 0 6 < 48 → (s.denAt (field (v : Word) 0 6)).isStatic = false →
    s.den.loadBusy = true → exec (.denLoadStart m v) s = .next ((s.modDenBlk fun b => { b with loadResult := 2 }).answer m .ok 0)) ∧
  (∀ s m v, s.admitsWrite m 0x40001C = true → s.den.loadBusy = true → ∃ t, exec (.denLoadAbort m v) s = .next t ∧
    t.den.loadBusy = false ∧ t.den.loadResult = 10 ∧ (t.denAt s.den.loadDen.toNat).shadow = .failed ∧
    t.evt = s.evt.push (s.record none .denLoadFail (ofFields [(0, s.den.loadDen.toNat), (8, 10)]))) ∧
  (∀ s m v, s.admitsWrite m 0x40001C = true → s.den.loadBusy = false → exec (.denLoadAbort m v) s = .next (s.answer m .ok 0)) ∧
  (∀ s out, s.on = true → s.den.loadBusy = true → let d := s.den.loadDen.toNat; let p := !(s.denAt d).active; let len := s.den.curLen.toNat
    let f := s.fetchImage s.den.curSrc len (LoadOutcome.fetch out, out.bytes)
    let w := ((s.advanceTo (s.den.loadAt + planeNs * (1 + s.den.readback.toNat))).writePlaneImage d p f.2).strike d p out.upsets
    let r := w.planeBody len f.2 (!s.den.readback || w.readsBack d p)
    (f.1 ≠ .ok → ∃ t, exec (.denLoadComplete out) s = .next t ∧ t.den.loadBusy = false ∧ t.den.loadResult = 8 ∧
      t.den.loadErr = BitVec.ofNat 4 f.1.code ∧ (t.denAt d).shadow = .failed ∧ t.now = s.now) ∧
    (f.1 = .ok → s.planeHeader d len f.2 ≠ 0 → exec (.denLoadComplete out) s = .next (s.loadEnds (s.planeHeader d len f.2) 0 0)) ∧
    (f.1 = .ok → s.planeHeader d len f.2 = 0 → ∃ t, exec (.denLoadComplete out) s = .next t ∧ t.den.loadBusy = false ∧
      t.den.loadResult = BitVec.ofNat 4 r ∧ t.den.loadFrames = 3072 ∧ t.bdg.cram = w.bdg.cram ∧
      t.now = max s.now (s.den.loadAt + planeNs * (1 + s.den.readback.toNat)) ∧
      (if r = 0 then (t.denAt d).shadow = .ready ∧ (t.denAt d).shadowId = BitVec.ofNat 8 (byteAt f.2 0x12) ∧
          (t.denAt d).src = s.den.curSrc ∧ (t.denAt d).active = (s.denAt d).active ∧
          t.evt = s.evt.push (t.record none .denLoadDone (ofFields [(0, d), (8, byteAt f.2 0x12)]))
        else (t.denAt d).shadow = .failed ∧ t.evt = s.evt.push (t.record none .denLoadFail (ofFields [(0, d), (8, r)]))))) ∧
  (∀ s r e k, r < 16 → let t := s.loadEnds r e k; Frame [.den, .bdg, .evt] s t ∧ t.den.loadBusy = false ∧ t.den.loadResult = BitVec.ofNat 4 r ∧
    t.bdg.cram = s.bdg.cram ∧ (r ≠ 0 → (t.denAt s.den.loadDen.toNat).shadow = .failed ∧
      t.evt = s.evt.push (s.record none .denLoadFail (ofFields [(0, s.den.loadDen.toNat), (8, r)]))))

/-- An outbound request of a best-effort or control form to this device, through an open gate with room for its response,
enters the network from the den, with its tag outstanding and its response's flits reserved; an isolated or draining den is
held back. An inbound request that is not blocked is presented to an open den with room, with its offset in the den
window; answered DEN_GONE by an isolated one; held while it drains; answered BUSY when it writes before release stage 2. A
response returns to its request and takes it off the list; one for a request the gate has answered is counted as gone
and discarded. A request unanswered for DEN_RSP_LIMIT is answered DEN_GONE and reported. The drain window opens
DEN_DRAIN_LIMIT before the edge of its swap. (R91, R140, R141, R143, R148, R153) -/
def Obligations.DenGate : Prop :=
  (∀ s (den : Fin 48) p, s.on = true → (s.denAt den).isolated = false → (s.denAt den).freeze = none → (s.denAt den).draining = false →
    (s.denAt den).reservedFlits + rspFlits p ≤ 128 →
    let q : Packet := { p with hdr := { p.hdr with src := BitVec.ofNat 6 (16 + den.val), srcDev := s.tbs.devNum } }
    s.tagBusy q.hdr.src q.hdr.tag = false → q.malformed = false → q.hdr.dstDev = s.tbs.devNum → s.noPlace q.hdr = false →
    (q.hdr.guar = false ∨ isControl q.hdr = true) → exec (.denOutboundRequest den p) s = .next
      ((((s.reach .noc).1.markTag q.hdr.src q.hdr.tag true).sendRequest q none).modDen den fun n =>
        { n with outTags := if q.hdr.isPush then n.outTags else setBit n.outTags q.hdr.tag.toNat true
                 pushTags := if q.hdr.isPush then setBit n.pushTags q.hdr.tag.toNat true else n.pushTags
                 reserved := n.reserved.set 0 q.hdr.tag.toNat (rspFlits q) })) ∧
  (∀ s (den : Fin 48) p, s.on = true → ((s.denAt den).isolated = true ∨ (s.denAt den).draining = true) →
    exec (.denOutboundRequest den p) s = .next s) ∧
  (∀ s (den : Fin 48) p, s.on = true → s.writeBlocked p = false → (s.denAt den).isolated = false → (s.denAt den).freeze = none →
    (s.denAt den).draining = false → (s.reach .fab).2 = true → (s.denAt den).inbound.length < 32 → exec (.denInboundRequest den p) s =
      .next (((s.reach .fab).1.takeTarget p).modDen den fun n => { n with inbound := n.inbound ++
        [{ pkt := p, off := BitVec.ofNat 32 (p.hdr.addr.toNat - 0x1000000000), time := s.now }] })) ∧
  (∀ s (den : Fin 48) p, s.on = true → s.writeBlocked p = true →
    exec (.denInboundRequest den p) s = .next ((s.takeTarget p).respond p .busy [])) ∧
  (∀ s (den : Fin 48) p, s.on = true → s.writeBlocked p = false → (s.denAt den).isolated = true →
    exec (.denInboundRequest den p) s = .next ((s.takeTarget p).respond p .denGone [])) ∧
  (∀ s (den : Fin 48) p, s.on = true → s.writeBlocked p = false → (s.denAt den).isolated = false → (s.denAt den).draining = true →
    exec (.denInboundRequest den p) s = .next ((s.takeTarget p).modDen den fun n => { n with held := n.held ++ [p] })) ∧
  (∀ s (den : Fin 48) p r l e data, s.on = true → (s.denAt den).isolated = false → (s.denAt den).freeze = none →
    (s.denAt den).inbound = r :: l → sameReq r.pkt p = true → exec (.denInboundResponse den p e data) s =
      .next (((s.modDen den fun n => { n with inbound := l }).presentMore den).respond r.pkt e data)) ∧
  (∀ s (den : Fin 48) p e data, s.on = true → (s.denAt den).isolated = false → (s.denAt den).freeze = none → (s.denAt den).inbound = [] →
    (s.denAt den).gone = [(p.hdr.srcDev, p.hdr.src, p.hdr.tag)] → exec (.denInboundResponse den p e data) s =
      .next (s.modDen den fun n => { n with gone := [], goneCount := satInc n.goneCount })) ∧
  (∀ s (den : Fin 48) p r l, (s.denAt den).inbound = r :: l → sameReq r.pkt p = true → (s.denAt den).rspLimit ≠ 0 →
    exec (.denRspTimeout den p) s = .next (((((s.advanceTo (r.time + (s.denAt den).rspLimit.toNat)).modDen den fun n =>
      { n with inbound := l, gone := n.gone ++ [(p.hdr.srcDev, p.hdr.src, p.hdr.tag)] }).presentMore den).respond r.pkt .denGone []).raise
        .denRspTimeout (ofFields [(0, den.val), (8, p.hdr.src.toNat)]))) ∧
  (∀ s (den : Fin 48) e, s.drainEdge den = some e → s.time.runs = true → s.time.steer = 0 → e < 2 ^ 63 →
    ∃ t, exec (.drainWindowOpen den) s = .next t ∧ t.denAt den = { s.denAt den with draining := true } ∧
      t.now = s.now + s.cyclesTo (256 * (e - (s.denAt den).drainLimit.toNat)) ∧ ∀ d, d ≠ den.val → t.denAt d = s.denAt d)

/-- 40 ns after the swap edge the planes change places (a den that only ends isolation keeps them) and its registers take
INIT; at 56 ns the den leaves reset unless it stays isolated; at 64 ns the freeze is over and DG_PLANE shows the new plane:
isolation ends with it and held requests are presented as far as 32 fit, and the end of a reload is reported. (R150, R151,
R153, R154, R174, R377) -/
def Obligations.Freeze : Prop :=
  (∀ s (den : Fin 48) e, (s.denAt den).freeze = some (.switching, e) → (s.denAt den).freezeSwap = true →
    (s.denAt den).activeEmpty = false → ∃ t, exec (.freezePlaneActive den) s = .next t ∧ t.now = max s.now (e + 40) ∧
      t.denAt den = { s.denAt den with
        freeze := some (.planeActive, e), freezeSwap := false, active := !(s.denAt den).active, shadow := .ready,
        activeId := (s.denAt den).shadowId, shadowId := (s.denAt den).activeId, src := (s.denAt den).activeSrc,
        activeSrc := (s.denAt den).src } ∧ t.fab = Fab.denInit den s.fab ∧ ∀ d, d ≠ den.val → t.denAt d = s.denAt d) ∧
  (∀ s (den : Fin 48) e, (s.denAt den).freeze = some (.switching, e) → (s.denAt den).freezeSwap = false →
    ∃ t, exec (.freezePlaneActive den) s = .next t ∧ t.denAt den = { s.denAt den with freeze := some (.planeActive, e) }) ∧
  (∀ s (den : Fin 48) e, (s.denAt den).freeze = some (.planeActive, e) → exec (.freezeResetRelease den) s =
    .next ((s.advanceTo (e + 56)).modDen den fun n =>
      { n with freeze := some (.released, e), inReset := if n.freezeEnds then false else n.inReset })) ∧
  (∀ s (den : Fin 48) e, (s.denAt den).freeze = some (.released, e) → (s.denAt den).freezeEnds = true →
    ∃ t, exec (.freezeEnd den) s = .next t ∧ t.now = max s.now (e + 64) ∧ (t.denAt den).freeze = none ∧ (t.denAt den).isolated = false ∧
      (t.denAt den).iso = none ∧ (t.denAt den).showPlane = (s.denAt den).active ∧ (t.denAt den).swapping = false ∧
      ((s.denAt den).swapping = true → (t.denAt den).edgeAt = some t.now) ∧
      (t.denAt den).inbound = (s.denAt den).inbound ++ ((s.denAt den).held.take (32 - (s.denAt den).inbound.length)).map
        (fun p => InReq.of p t.now) ∧
      (t.denAt den).held = (s.denAt den).held.drop (32 - (s.denAt den).inbound.length) ∧
      t.evt = (if (s.denAt den).reloadEnd then s.evt.push (t.record none .bdgReloadDone (BitVec.ofNat 32 den)) else s.evt)) ∧
  (∀ s (den : Fin 48) e, (s.denAt den).freeze = some (.released, e) → (s.denAt den).freezeEnds = false → (s.denAt den).held = [] →
    ∃ t, exec (.freezeEnd den) s = .next t ∧ (t.denAt den).freeze = none ∧ (t.denAt den).isolated = (s.denAt den).isolated ∧
      (t.denAt den).inbound = (s.denAt den).inbound)

/-- While the loader, a reload or a re-fetch uses the CRAM, the Badger waits. While it runs in PACED mode, inside a segment of
the active planes whose den is not in its freeze, a frame starts when it is due: the map word is read and its parity checked,
and each word takes one CFG cycle. A pause inside the frame leaves it at the next word; at the frame's end the position moves
on by one and the next frame is due INTERVAL cycles after this start, but not before this end. A word with one bit
flipped is corrected in two CFG cycles more, and counts in BDG_CE_COUNT and in the CRAM bucket. A word with two is counted
and joins the known-bad list of 16, and BDG_UE_ESSENTIAL or BDG_UE_BENIGN is raised by the essential-bit map; one on the list is
only counted as a repeat. Configuration memory as it was written does not change. (R159, R160, R162, R163, R165, R167, R168,
R170, R171, R172) -/
def Obligations.BadgerScrub : Prop :=
  (∀ s n mf ups, s.den.loadBusy = true ∨ s.bdg.rlBusy = true ∨ s.bdg.rfBusy = true → exec (.badgerFrame n mf ups) s = .next s) ∧
  (∀ s, s.on = true → s.bdg.state = .running → s.bdg.idleMode = false → s.den.loadBusy = false → s.bdg.rlBusy = false →
    s.bdg.rfBusy = false → s.bdg.position.toNat < 147455 → s.bdg.visiting = true →
    s.bdg.position.toNat % 3072 ≠ 0 → s.bdg.position.toNat % 3072 ≠ 3071 →
    let d := s.bdg.position.toNat / 3072
    let f := s.bdg.position.toNat % 3072
    let k := planeBase d s.bdg.segPlane + f
    let a := s.advanceTo s.bdg.nextDue
    (s.denAt d).swapping = false → s.bdg.segPlane = (s.denAt d).active → (∀ i < 64, s.bdg.flips.getD (64 * k + i) 0 = 0) →
    (∀ n, 0 < n → s.bdg.word.toNat + n < 64 → mapGood (s.bdg.map.getD k 0) = true → ∃ t, exec (.badgerFrame n 0 []) s = .next t ∧
      t.bdg.word.toNat = s.bdg.word.toNat + n ∧ t.bdg.position = s.bdg.position ∧
      t.now = (if s.bdg.word = 0 then a.now else s.now) + 2 * n ∧ t.bdg.cram = s.bdg.cram ∧ t.bdg.ceCount = s.bdg.ceCount) ∧
    (s.bdg.word = 0 →
      let done (k : Nat) (t : State) : Prop := t.bdg.position.toNat = s.bdg.position.toNat + 1 ∧ t.bdg.word = 0 ∧ t.bdg.cram = s.bdg.cram ∧
        t.now = a.now + 2 * k ∧ t.bdg.nextDue = max t.now (a.now + 2 * s.bdg.interval.toNat)
      (∀ mf, let m := s.bdg.map.getD k 0 ^^^ mf
        ∃ t, exec (.badgerFrame 64 mf []) s = .next t ∧ done 64 t ∧ t.bdg.map.getD k 0 = m ∧ t.bdg.flips = s.bdg.flips ∧
          (if mapGood m then t.bdg.mapPerr = s.bdg.mapPerr ∧ t.evt = s.evt
            else t.bdg.mapPerr = satInc s.bdg.mapPerr ∧
              t.evt = s.evt.push (a.record none .bdgMapParity (ofFields [(0, d), (6, s.bdg.segPlane.toNat), (7, f)])))) ∧
      (mapGood (s.bdg.map.getD k 0) = true → ∀ u : Upset, u.sticks = false →
        (popCount u.bits.toNat 72 = 1 → ∃ t, exec (.badgerFrame 64 0 [u]) s = .next t ∧ done 66 t ∧ t.bdg.ceCount = satInc s.bdg.ceCount ∧
          t.bdg.bucket = (bucketAdd s.bdg.bucket s.bdg.thresh 1).1 ∧ t.bdg.flips.getD (64 * k + u.word.val) 0 = 0 ∧ t.bdg.bad = s.bdg.bad) ∧
        (popCount u.bits.toNat 72 = 2 → (k, u.word.val) ∈ s.bdg.bad → ∃ t, exec (.badgerFrame 64 0 [u]) s = .next t ∧ done 64 t ∧
          t.bdg.ueRepeat = satInc s.bdg.ueRepeat ∧ t.bdg.ueCount = s.bdg.ueCount ∧ t.evt = s.evt) ∧
        (popCount u.bits.toNat 72 = 2 → (k, u.word.val) ∉ s.bdg.bad → s.bdg.policy.getD d 0 = 0 →
          ∃ t r, exec (.badgerFrame 64 0 [u]) s = .next t ∧ done 64 t ∧ t.bdg.ueCount = satInc s.bdg.ueCount ∧
            t.bdg.bad = (if s.bdg.bad.length < 16 then s.bdg.bad ++ [(k, u.word.val)] else s.bdg.bad) ∧
            t.evt.queue = (s.evt.push r).queue ∧ r.detail = ueDetail d s.bdg.segPlane f u.word 0 false ∧
            r.code = (if (s.bdg.map.getD k 0).getLsbD u.word then Ev.bdgUeEssential else .bdgUeBenign).code))))

/-- With the loader free, the lowest pending isolated den is reloaded into its active plane if that plane has a VALID
source; without one the reload ends with result 8 and BDG_RELOAD_FAIL. A reload whose fetch, as master 5, failed ends with
result 8, one whose header fails with that check's result, else the plane is rewritten and it ends with the first check
of a load's body that fails, or with result 0, after which the den leaves isolation 40 ns later. A re-fetch is refused
with result 1 when REFETCH_EN is 0, 2 for an encrypted image, 3 for a plane not from flash, 6 while one runs; else it is
busy with the frame of the active plane, and ends with the frame rewritten and its known-bad words removed, or with
result 4, when the slot's image CRC is not that of LOAD, or 5 and nothing written. A voted disagreement is counted. (R174,
R175, R176, R177, R178) -/
def Obligations.Reloads : Prop :=
  (∀ s (d : Fin 48), s.on = true → s.den.loadBusy = false → s.bdg.rlBusy = false → s.bdg.rlPend.getLsbD d = true →
    (s.denAt d).isolated = true → (∀ j < d.val, s.bdg.rlPend.getLsbD j = false ∨ (s.denAt j).isolated = false) →
    ∃ t, exec .reloadStart s = .next t ∧ t.bdg.rlDen = BitVec.ofNat 6 d ∧ t.bdg.rlPend = setBit s.bdg.rlPend d false ∧
      (if (s.bdg.sources.getD (2 * d.val + (s.denAt d).active.toNat) (false, 0)).1 then
        t.bdg.rlBusy = true ∧ t.bdg.rlPlane = (s.denAt d).active ∧ t.bdg.rlAt = s.now ∧ t.evt = s.evt
      else t.bdg.rlBusy = false ∧ t.bdg.rlResult = 8 ∧
        t.evt = s.evt.push (s.record none .bdgReloadFail (ofFields [(0, d.val), (8, 8)])))) ∧
  (∀ s out, s.on = true → s.bdg.rlBusy = true → let d := s.bdg.rlDen.toNat; let p := s.bdg.rlPlane
    let src := (s.bdg.sources.getD (2 * d + p.toNat) (false, 0)).2
    let hd := s.fetchImage src 4096 (LoadOutcome.fetch out, out.bytes)
    let len := planeLen hd.2
    let f := s.fetchImage src len (out.fetch, out.bytes)
    let w := ((((s.advanceTo (s.bdg.rlAt + 2 * planeNs)).modDen d fun n => { n with changed := true }).writePlaneImage d p f.2).strike d p out.upsets)
    let r := w.planeBody len f.2 (w.readsBack d p)
    (hd.1 ≠ .ok → ∃ t, exec (.reloadComplete out) s = .next t ∧ t.bdg.rlBusy = false ∧ t.bdg.rlResult = 8 ∧ t.bdg.cram = s.bdg.cram ∧
      t.den = s.den) ∧
    (hd.1 = .ok → f.1 = .ok → s.planeHeader d len f.2 ≠ 0 →
      exec (.reloadComplete out) s = .next (s.reloadEnds d (s.planeHeader d len f.2))) ∧
    (hd.1 = .ok → f.1 ≠ .ok → ∃ t, exec (.reloadComplete out) s = .next t ∧ t.bdg.rlBusy = false ∧ t.bdg.rlResult = 8 ∧
      (t.denAt d).changed = true ∧ (t.denAt d).isolated = (s.denAt d).isolated) ∧
    (hd.1 = .ok → f.1 = .ok → s.planeHeader d len f.2 = 0 → ∃ t, exec (.reloadComplete out) s = .next t ∧ t.bdg.rlBusy = false ∧
      t.bdg.rlResult = BitVec.ofNat 4 r ∧ t.bdg.rlDen = s.bdg.rlDen ∧ t.bdg.cram = w.bdg.cram ∧
      t.now = max s.now (s.bdg.rlAt + 2 * planeNs) ∧ (t.denAt d).changed = true ∧
      (if r = 0 then (t.denAt d).endIso = some (t.now + 40) ∧ (t.denAt d).activeId = BitVec.ofNat 8 (byteAt f.2 0x12) ∧ t.evt = s.evt
        else t.evt = s.evt.push (t.record none .bdgReloadFail (ofFields [(0, d), (8, r)]))))) ∧
  (∀ s v, s.admitsWrite 0 0x300100 = true → BitVec.getLsbD (v : Word) 31 = true → exec (.cfgRefetch 0 v) s =
    .next ((s.modBdg fun b =>
      if !s.img.refetchEn then { b with rfResult := 1 }
      else if s.img.encrypted then { b with rfResult := 2 }
      else if 48 ≤ field v 0 6 ∨ 3072 ≤ field v 6 12 ∨ (s.denAt (field v 0 6)).changed = true then { b with rfResult := 3 }
      else if b.rfBusy then { b with rfResult := 6 }
      else { b with rfBusy := true, rfFrame := planeBase (field v 0 6) (s.denAt (field v 0 6)).active + field v 6 12 }).answer 0 .ok 0)) ∧
  (∀ (s : State) m v, m ≠ 0 → s.on = true → ∃ t, exec (.cfgRefetch m v) s = .next t ∧ t.bdg = s.bdg ∧
    t.bus = { master := m, err := .accessDenied, data := 0 }) ∧
  (∀ s words, s.on = true → s.bdg.rfBusy = true → ∃ t, exec (.refetchComplete (.read s.img.imageCrc words)) s = .next t ∧ Frame [.bdg] s t ∧
    t.bdg.rfBusy = false ∧ t.bdg.rfResult = 0 ∧ t.bdg.bad = s.bdg.bad.filter (fun x => x.1 != s.bdg.rfFrame) ∧
    (∀ i < 64, t.bdg.cram.getD (64 * s.bdg.rfFrame + i) 0 = words.getD i 0 ∧ t.bdg.flips.getD (64 * s.bdg.rfFrame + i) 0 = 0) ∧
    ∀ k, k < 64 * s.bdg.rfFrame ∨ 64 * s.bdg.rfFrame + 64 ≤ k →
      t.bdg.cram.getD k 0 = s.bdg.cram.getD k 0 ∧ t.bdg.flips.getD k 0 = s.bdg.flips.getD k 0) ∧
  (∀ s crc words, s.on = true → s.bdg.rfBusy = true → crc ≠ s.img.imageCrc →
    exec (.refetchComplete (.read crc words)) s = .next (s.modBdg fun b => { b with rfBusy := false, rfResult := 4 })) ∧
  (∀ s, s.on = true → s.bdg.rfBusy = true →
    exec (.refetchComplete .flash) s = .next (s.modBdg fun b => { b with rfBusy := false, rfResult := 5 })) ∧
  (∀ s n, s.on = true → exec (.tmrDisagreement n) s = .next (s.modBdg fun b => { b with tmrFix := satAdd b.tmrFix n }))

/-- A leak tick takes 1 from its bucket, down to 0, LEAK ms after the last one or the timer's start; with LEAK 0 it does
nothing. A write of a bucket's configuration sets THRESH and LEAK, restarts the timer and checks the count at
once: a count that has reached THRESH goes to 0. When a lap's counted time reaches twice the target in effect for it, the lap
restarts at position 0 with an empty known-bad list, counted and reported; at the third restart among ten laps the
Badger has failed and is unscrubbed, or the device enters STOP. (R164, R168, R179, R222, R223) -/
def Obligations.BucketsAndWatch : Prop :=
  (∀ s (i : Fin 32), s.brw.leak = 0 → exec (.bucketLeakTick (.burrow i)) s = .next s) ∧
  (∀ s (i : Fin 32), s.brw.leak ≠ 0 → ∃ t, exec (.bucketLeakTick (.burrow i)) s = .next t ∧
    (t.bankAt i).bucket.toNat = (s.bankAt i).bucket.toNat - 1 ∧ (∀ j, j ≠ i.val → t.bankAt j = s.bankAt j) ∧
    t.now = max s.now (leakDue s.brw.leakAt (s.bankAt i).tickAt s.brw.leak.toNat) ∧
    (t.bankAt i).tickAt = leakDue s.brw.leakAt (s.bankAt i).tickAt s.brw.leak.toNat) ∧
  (∀ s (d : Fin 48), s.brw.settLeak ≠ 0 → ∃ t, exec (.bucketLeakTick (.sett d)) s = .next t ∧
    (t.brw.settBucket.getD d 0).toNat = (s.brw.settBucket.getD d 0).toNat - 1 ∧
    ∀ e, e ≠ d.val → t.brw.settBucket.getD e 0 = s.brw.settBucket.getD e 0) ∧
  (∀ s, s.bdg.leak ≠ 0 → ∃ t, exec (.bucketLeakTick .cram) s = .next t ∧ t.bdg.bucket.toNat = s.bdg.bucket.toNat - 1 ∧
    t.now = max s.now (leakDue s.bdg.leakAt s.bdg.tickAt s.bdg.leak.toNat) ∧
    t.bdg.tickAt = leakDue s.bdg.leakAt s.bdg.tickAt s.bdg.leak.toNat) ∧
  (∀ s (c : Fin 4), (s.chAt c).leak ≠ 0 → ∃ t, exec (.bucketLeakTick (.ddr c)) s = .next t ∧
    (t.chAt c).bucket.toNat = (s.chAt c).bucket.toNat - 1) ∧
  (∀ s m v, s.admitsWrite m 0x500044 = true → ∃ t, exec (.bucketCfgWrite m .cram v) s = .next t ∧
    t.bdg.thresh = BitVec.ofNat 16 (v : Word).toNat ∧ t.bdg.leak = BitVec.ofNat 16 (field v 16 16) ∧ t.bdg.leakAt = s.now ∧
    (if field v 0 16 ≤ s.bdg.bucket.toNat ∨ field v 0 16 = 0 then t.bdg.bucket = 0 else t.bdg.bucket = s.bdg.bucket) ∧
    (if 0 < field v 0 16 ∧ field v 0 16 ≤ s.bdg.bucket.toNat then t.evt = s.evt.push (s.record none .bdgCeBurst 0) else t.evt = s.evt)) ∧
  (∀ s m v, s.admitsWrite m 0x703100 = true → ∃ t, exec (.bucketCfgWrite m .burrow v) s = .next t ∧
    t.brw.thresh = BitVec.ofNat 16 (v : Word).toNat ∧ t.brw.leakAt = s.now ∧ ∀ b : Fin 32, (t.bankAt b).bucket =
      if field v 0 16 ≤ (s.bankAt b).bucket.toNat ∨ field v 0 16 = 0 then 0 else (s.bankAt b).bucket) ∧
  (∀ s m v, s.admitsWrite m 0x703300 = true → ∃ t, exec (.bucketCfgWrite m .sett v) s = .next t ∧
    t.brw.settThresh = BitVec.ofNat 16 (v : Word).toNat ∧ t.brw.settLeakAt = s.now ∧ t.brw.thresh = s.brw.thresh) ∧
  (∀ s m (c : Fin 4) v, s.admitsWrite m (BitVec.ofNat 48 (0x80101C + 0x100 * c.val)) = true →
    ∃ t, exec (.bucketCfgWrite m (.ddr c) v) s = .next t ∧ (t.chAt c).thresh = BitVec.ofNat 16 (v : Word).toNat ∧
      (t.chAt c).leakAt = s.now ∧ ∀ e, e ≠ c.val → t.chAt e = s.chAt e) ∧
  (∀ s, s.on = true → s.bdg.state = .running → s.bdg.exclFrom = none → let a := s.advanceTo (s.bdg.lapAt + s.bdg.excluded + 2000 * s.bdg.lapCur.toNat)
    ∃ t, exec .lapWatchExpire s = .next t ∧ t.bdg.restarts = satInc s.bdg.restarts ∧
      t.bdg.outcomes = (s.bdg.outcomes <<< 1 ||| 1) ∧
      (if popCount (s.bdg.outcomes <<< 1 ||| 1).toNat 10 < 3 then
        t.bdg.position = 0 ∧ t.bdg.bad = [] ∧ t.bdg.lapAt = a.now ∧ t.bdg.lapCur = s.bdg.lapTarget ∧ t.mode = s.mode ∧
          t.evt = s.evt.push (a.record none .bdgRestart (BitVec.ofNat 32 s.bdg.position.toNat))
      else if s.bdg.failStop then t.mode = .stop else t.bdg.state = .failed ∧ t.bdg.unscrubbed = true ∧ t.mode = s.mode))

/-- A request whose tag is still outstanding from its master is answered BUSY and not sent. One that fails the checks of
R186, or is for no place on this device, is answered DECODE. A request for another device that the table denies at
target 18 is answered ACCESS_DENIED. Any other best-effort or control request enters the network with its tag outstanding:
one to a CSR of this device on the loop channel's ring SRC_MASTER mod 4, another on the trail, to the unit that holds its
address or to the span port its route names. A guaranteed request joins the queue of its port while fewer than 32 wait
there; one whose flow has no entry in an active epoch is answered BUSY with VNX_FLOW_ORPHAN. (R182, R184, R186, R194, R200,
R273, R348) -/
def Obligations.NetInject : Prop :=
  (∀ s p, s.on = true → s.tagBusy (Packet.hdr p).src p.hdr.tag = true →
    exec (.netRequestInject p) s = .next (s.answer p.hdr.src .busy 0)) ∧
  (∀ s p, s.on = true → s.tagBusy (Packet.hdr p).src p.hdr.tag = false →
    (p.malformed = true ∨ (p.hdr.dstDev = s.tbs.devNum ∧ s.noPlace p.hdr = true)) →
    exec (.netRequestInject p) s = .next (s.answer p.hdr.src .decode 0)) ∧
  (∀ s p, s.on = true → s.tagBusy (Packet.hdr p).src p.hdr.tag = false → p.malformed = false → p.hdr.dstDev ≠ s.tbs.devNum →
    s.denied p.hdr.src 18 p.hdr.reads p.hdr.writes = true →
    ∃ t, exec (.netRequestInject p) s = .next t ∧ t.bus = { master := p.hdr.src, err := .accessDenied, data := 0 } ∧ t.vnx = s.vnx ∧
      t.fus.denyCount = satInc s.fus.denyCount) ∧
  (∀ s p, s.on = true → s.tagBusy (Packet.hdr p).src p.hdr.tag = false → p.malformed = false →
    (if p.hdr.dstDev = s.tbs.devNum then s.noPlace p.hdr = false else s.denied p.hdr.src 18 p.hdr.reads p.hdr.writes = false) →
    let q : Packet := { p with hdr := { p.hdr with srcDev := s.tbs.devNum } }
    let a := (s.reach .noc).1
    ((p.hdr.guar = false ∨ isControl p.hdr = true) → exec (.netRequestInject p) s = .next ((a.markTag p.hdr.src p.hdr.tag true).sendRequest q none)) ∧
    (p.hdr.guar = true → isControl p.hdr = false → unitPort (masterNode p.hdr.src) = none →
      exec (.netRequestInject p) s = .next (a.answer p.hdr.src .busy 0)) ∧
    (∀ st hard, p.hdr.guar = true → isControl p.hdr = false → unitPort (masterNode p.hdr.src) = some (st, hard) →
      (a.vnx.flowActive st hard p.hdr.flow = false →
        exec (.netRequestInject p) s = .next ((a.orphan q st hard).answer p.hdr.src .busy 0)) ∧
      (a.vnx.flowActive st hard p.hdr.flow = true → 32 ≤ (a.vnx.net.filter fun x => x.queued st hard).length →
        exec (.netRequestInject p) s = .next a) ∧
      (a.vnx.flowActive st hard p.hdr.flow = true → (a.vnx.net.filter fun x => x.queued st hard).length < 32 →
        ∃ t x, exec (.netRequestInject p) s = .next t ∧ Frame [.vnx] a t ∧ t.vnx.net = a.vnx.net ++ [x] ∧ x.pkt = q ∧
          x.queued st hard = true ∧ t.tagBusy p.hdr.src p.hdr.tag = true))) ∧
  (∀ (s : State) p, let m := masterNode (Packet.hdr p).src
    ∃ x, (s.sendRequest p none).vnx.net = s.vnx.net ++ [x] ∧ Frame [.vnx] s (s.sendRequest p none) ∧ x.pkt = p ∧ x.src = m ∧ x.sent = 0 ∧
      (p.hdr.dstDev = s.tbs.devNum → x.dst = (s.unitOf p.hdr).getD m ∧ x.arrived = none ∧ x.link = none) ∧
      (∀ k, p.hdr.dstDev ≠ s.tbs.devNum → s.routeOf p.hdr.dstDev = some k → x.dst = spanNode k ∧ x.arrived = none ∧ x.link = some k) ∧
      x.chan = (if isControl p.hdr ∧ (unitPort m).isSome ∧ (unitPort x.dst).isSome then .control (p.hdr.src.toNat % 4) else .trail false))

/-- A request that has reached its unit's port is taken there. With fuse REMOTE_DENY one that came from another device is
answered ACCESS_DENIED; else one that fails the checks of R186, or that is at a unit which does not hold its address, is
answered DECODE, and one the access tables deny ACCESS_DENIED, counted. A READ of a TCM gives its bytes, or POISON when its
parity is wrong; a WRITE stores its bytes and changes no other byte; an ADD or SWAP stores the sum or the operand. A request
for a den, the DDR or the host waits at that unit. A damaged data flit or a header with one good copy is answered POISON
with VNX_POISON; with no good copy, VNX_HDR_LOST is raised and nothing is answered. A packet that is not on the network
is taken by nobody. (R186, R187, R188, R221, R350, R352, R354, R355) -/
def Obligations.NetArrive : Prop :=
  (∀ s p remote flips bad, s.on = true → (Packet.hdr p).opc ≠ opRsp → p.hdr.dstDev = s.tbs.devNum →
    let mine : InFlight → Bool := fun x => samePacket x.pkt p && x.remote == remote
    (s.vnx.net.any mine = false → exec (.netRequestTarget p remote flips bad) s = .next s) ∧
    (∀ q, s.atPort mine = some q → (s.reach (unitDomain q.dst)).2 = true → (s.reach (unitDomain q.dst)).1.portFull q = false →
      let a := (s.reach (unitDomain q.dst)).1.takeNet q
      (flips = [] → exec (.netRequestTarget p remote flips bad) s = .next (a.arrive q bad)) ∧
      (q.pkt.receive flips = .badData → exec (.netRequestTarget p remote flips bad) s = .next (a.poisoned q.pkt)) ∧
      (∀ m t d, q.pkt.receive flips = .badHeader m t d →
        exec (.netRequestTarget p remote flips bad) s = .next (a.poisoned (q.pkt.renamed m t d))) ∧
      (q.pkt.receive flips = .lost → exec (.netRequestTarget p remote flips bad) s = .next (a.raise .vnxHdrLost 0)))) ∧
  (∀ (s : State) p, s.poisoned p = (s.raise .vnxPoison (ofFields [(0, (Packet.hdr p).src.toNat), (8, p.hdr.tag.toNat)])).respond p .poison []) ∧
  (∀ (s : State) (q : InFlight) bad, let h := q.pkt.hdr; let m := s.acting h; let t := s.reqTarget h
    (q.remote = true → fuseBit s.fus.latched 4278 = true →
      s.arrive q bad = (s.deny m t h.writes true).respond q.pkt .accessDenied []) ∧
    ((q.remote = false ∨ fuseBit s.fus.latched 4278 = false) →
      ((q.pkt.malformed = true ∨ s.unitOf h ≠ some q.dst) → s.arrive q bad = s.respond q.pkt .decode []) ∧
      (q.pkt.malformed = false → s.unitOf h = some q.dst →
        (h.isPush = false → ((h.isWrite = true ∧ protectedWrite m h.addr = true) ∨ s.denied m t h.reads h.writes = true) →
          s.arrive q bad = (s.deny m t h.writes q.remote).respond q.pkt .accessDenied []) ∧
        ((h.isPush = true ∨ ((h.isWrite = false ∨ protectedWrite m h.addr = false) ∧ s.denied m t h.reads h.writes = false)) →
          (h.isPush = true → s.arrive q bad = s.waitAtTarget q) ∧
          (∀ pl, h.isPush = false → s.place h.addr = some pl →
            (match pl with | .den _ _ => True | .ddr _ => True | .host => True | _ => False) → s.arrive q bad = s.waitAtTarget q) ∧
          (∀ o, h.isPush = false → s.place h.addr = some (.burrow o) → s.arrive q bad = s.burrowArrive q o) ∧
          (h.isPush = false → s.place h.addr = some .csr → s.arrive q bad = s.csrRequest q.pkt) ∧
          (∀ k o, h.isPush = false → s.place h.addr = some (.tcm k o) → let x := tcmBase k + o; let old := s.ram.readN x h.bytes
            (h.isRead = true → s.arrive q false = s.respond q.pkt .ok old ∧ s.arrive q true = s.respond q.pkt .poison []) ∧
            (h.isWrite = true → s.arrive q bad = (s.modRam fun r => r.writeN x (q.pkt.data.take h.bytes)).respond q.pkt .ok [] ∧
              ∀ y, y < x ∨ x + h.bytes ≤ y → (s.ram.writeN x (q.pkt.data.take h.bytes)).read y = s.ram.read y) ∧
            (h.isAtomic = true → s.arrive q false = (s.modRam fun r => r.writeN x
              (leBytes (if h.opc = opAdd then leNat old + leNat q.pkt.data else leNat q.pkt.data) 8)).respond q.pkt .ok []))))))

/-- A response that has reached its master's port is taken there: it frees its tag and gives the master its error code and
data; one whose tag is not outstanding is discarded. A damaged data flit delivers POISON with VNX_POISON; a header with no
good copy is lost with VNX_HDR_LOST. A response to a den frees the den's own tag and reserved flits, and is counted and
discarded where a swap has cut it off. A credit that comes back over a link is held again. The network runs until a packet
that waits at a point has been boosted. (R152, R187, R188, R198, R199, R200) -/
def Obligations.NetDeliver : Prop :=
  (∀ s p flips, s.on = true → (Packet.hdr p).opc = opRsp → p.hdr.dstDev = s.tbs.devNum →
    let mine : InFlight → Bool := fun x => samePacket x.pkt p
    (s.vnx.net.any mine = false → exec (.netResponseDeliver p flips) s = .next s) ∧
    (∀ q, s.atPort mine = some q → (s.reach (unitDomain q.dst)).2 = true →
      let a := (s.reach (unitDomain q.dst)).1.takeNet q; let h := q.pkt.hdr
      (a.tagBusy h.src h.tag = false → flips = [] → exec (.netResponseDeliver p flips) s = .next a) ∧
      (a.tagBusy h.src h.tag = true →
        (flips = [] → exec (.netResponseDeliver p flips) s = .next (a.masterTakes q.pkt (errOf h.err) q.pkt.data)) ∧
        (q.pkt.receive flips = .badData → exec (.netResponseDeliver p flips) s = .next
          ((a.raise .vnxPoison (ofFields [(0, h.src.toNat), (8, h.tag.toNat)])).masterTakes q.pkt .poison []))) ∧
      (q.pkt.receive flips = .lost → exec (.netResponseDeliver p flips) s = .next (a.raise .vnxHdrLost 0)))) ∧
  (∀ (s : State) p e data, 4 ≤ (Packet.hdr p).src.toNat → let t := s.masterTakes p e data; let d := p.hdr.src.toNat - 16
    t.tagBusy p.hdr.src p.hdr.tag = false ∧
    (p.hdr.src.toNat < 16 → Frame [.vnx, .bus] s t ∧
      t.bus = { master := p.hdr.src, err := e, data := BitVec.ofNat 32 (leNat (data.take 4)) }) ∧
    (16 ≤ p.hdr.src.toNat → Frame [.vnx, .bus, .den] s t ∧ (t.denAt d).reserved.getD p.hdr.tag.toNat 0 = 0 ∧
      (t.denAt d).outTags = setBit (s.denAt d).outTags p.hdr.tag.toNat false ∧
      (if (s.denAt d).dropTags.getLsbD p.hdr.tag.toNat then t.bus = s.bus ∧ (t.denAt d).forceCount = satInc (s.denAt d).forceCount
        else t.bus = { master := p.hdr.src, err := e, data := BitVec.ofNat 32 (leNat (data.take 4)) } ∧
          (t.denAt d).forceCount = (s.denAt d).forceCount))) ∧
  (∀ (s : State) (a b : Fin 160) rsp, ∃ t, exec (.creditReturn a b rsp) s = .next t ∧ Frame [.vnx] s t ∧
    let l := s.vnx.link a b rsp; let l' := t.vnx.link a b rsp
    l'.held = l.held + min 1 l.returning.length ∧ l'.returning = l.returning.drop 1 ∧ l'.buf = l.buf ∧ l'.flying = l.flying ∧
      ∀ k, k ≠ linkKey a b rsp → t.vnx.links.getD k {} = s.vnx.links.getD k {}) ∧
  (∀ s w, s.on = true →
    ((s.boostedAt w = true ∨ s.waitsAt w = false ∨ s.running .noc = false) → exec (.arbBoost w) s = .next s) ∧
    (s.boostedAt w = false → s.waitsAt w = true → s.running .noc = true → s.vnx.ranTo = s.now →
      let t := (s.advance 1).netNs; t.boostedAt w = true → exec (.arbBoost w) s = .next t)) ∧
  (∀ (v : Vnx) (x : Nat × TrailLink) c f r, x.2.buf = (c, f) :: r → x.1 / 2 % 256 < 64 → f.first = true →
    256 ≤ v.cyc - max c x.2.headAt → v.boostDue x = some (arbPoint (x.1 / 2 % 256) (x.1 / 512) (x.1 % 2 == 1)))

/-- A write to an entry or to the frame register of a table in use or still draining is answered BUSY and changes nothing;
else it takes the written fields and clears VALIDATED. VALIDATE starts one check, and its end sets VALIDATED or
reports the first entry that fails. The network runs until the ring's next frame of the tick has begun; once all have, or with
NOC stopped, none begins. Frame 0 begins 8 ns after the edge or later: with a switch due, it changes the ring's epoch and the
old one drains for 200 NOC cycles; and the network runs until a drain has ended. (R190, R191, R193, R195) -/
def Obligations.SlotTables : Prop :=
  (∀ s m (a : Addr) v t, s.admitsWrite m a = true → 0x600000 ≤ a.toNat → vnxTable (a.toNat - 0x600000) = some t →
    s.catchUp.vnx.tableLocked t = true → exec (.vnxSlotWrite m a v) s = .next (s.catchUp.answer m .busy 0)) ∧
  (∀ s m v (t : Fin 8) (n : Fin 1024), let a : Addr := BitVec.ofNat 48 (0x610000 + 0x1000 * t.val + 4 * n.val); let c := s.catchUp
    s.admitsWrite m a = true → c.vnx.tableLocked t = false → ∃ u, exec (.vnxSlotWrite m a v) s = .next u ∧ Frame [.vnx, .bus] c u ∧
      u.bus = ⟨m, .ok, 0⟩ ∧ u.vnx.entry t n = (v : Word) &&& 0xFFFFFF ∧ u.vnx.validated = setBit c.vnx.validated t false ∧
      u.vnx.frame = c.vnx.frame ∧ ∀ k, k ≠ 1024 * t.val + n.val → u.vnx.slot.getD k 0 = c.vnx.slot.getD k 0) ∧
  (∀ s m v (t : Fin 8), let a : Addr := BitVec.ofNat 48 (0x600010 + 4 * t.val); let c := s.catchUp
    s.admitsWrite m a = true → c.vnx.tableLocked t = false → ∃ u, exec (.vnxSlotWrite m a v) s = .next u ∧ Frame [.vnx, .bus] c u ∧
      u.vnx.frame.getD t 0 = (v : Word) &&& 0x0FFF07FF ∧ u.vnx.validated = setBit c.vnx.validated t false ∧ u.vnx.slot = c.vnx.slot) ∧
  (∀ s : State, s.now ≤ s.vnx.ranTo → s.catchUp = s) ∧
  (∀ s m v, s.admitsWrite m 0x600040 = true → exec (.validate m v) s = .next ((s.modVnx fun x =>
    { x with validating := if x.validating.isNone then some (2 * field (v : Word) 0 2 + field v 2 1) else x.validating }).answer m .ok 0)) ∧
  (∀ s t, s.vnx.validating = some t → ∃ u, exec .validateDone s = .next u ∧ Frame [.vnx] s u ∧ u.vnx.validating = none ∧
    u.vnx.slot = s.vnx.slot ∧ match s.vnx.check t with
      | none => u.vnx.validated = setBit s.vnx.validated t true ∧ u.vnx.result = ofFields [(1, 1), (14, t / 2), (16, t % 2)]
      | some n => u.vnx.validated = s.vnx.validated ∧ u.vnx.result = ofFields [(2, 1), (4, n), (14, t / 2), (16, t % 2)]) ∧
  (∀ s (k : Fin 4), s.on = true → s.vnx.ranTo = s.now →
    ((s.loopDone = true ∨ s.running .noc = false) → exec (.slotFrameStart k) s = .next s) ∧
    (s.loopDone = false → s.running .noc = true → let t := (s.advance 1).netNs
      t.begun k ≠ s.begun k → exec (.slotFrameStart k) s = .next t)) ∧
  (∀ (v : Vnx) (k : Fin 4) e, let u := v.beginFrames k e; (u.ringSt k).frame = 1 ∧ (u.ringSt k).startAt = none ∧ (u.ringSt k).slot = 0 ∧
    (u.ringSt k).on = decide (48 ≤ u.frameSlots (u.active k)) ∧
    (if v.switching.getLsbD k = true ∧ (v.ringSt k).switchAt ≤ e then
        u.epoch = setBit v.epoch k (!v.epoch.getLsbD k) ∧ u.draining = setBit v.draining k true ∧
          u.switching = setBit v.switching k false ∧ (u.ringSt k).drainEnd = v.cyc + 200
      else u.epoch = v.epoch ∧ u.draining = v.draining ∧ u.switching = v.switching)) ∧
  (∀ slots count (r : RingSt), (r.wrap slots count).frame =
    if r.on = true ∧ slots ≤ r.slot ∧ r.frame < count then r.frame + 1 else r.frame) ∧
  (∀ s (k : Fin 4), s.on = true →
    (s.vnx.draining.getLsbD k = false → exec (.epochDrainEnd k) s = .next s) ∧
    (s.vnx.draining.getLsbD k = true → s.running .noc = true → s.vnx.ranTo = s.now → let t := (s.advance 1).netNs
      t.vnx.draining.getLsbD k = false → exec (.epochDrainEnd k) s = .next t))

/-- An ON bank with one access, the only word of its request: a READ without a double-bit error is answered OK with the
bytes at its address, and no byte of memory changes; a WRITE without one stores its bytes there, no other byte
changes, and it is answered OK. Single-bit errors in two granules of a read are counted as two, and nothing but what the errors name changes with them. A double-bit error in
a granule that is not yet known is counted and listed, raises BRW_UE, and a READ is answered POISON. An idle bank that
scrubs reads the word at its pointer and moves on, back to 0 past the last spare row; one that is being cleared serves
nothing. (R204, R205, R206, R207, R208, R209, R218, R219) -/
def Obligations.BurrowAccess : Prop :=
  (∀ s (b : Fin 32) (a : WordAcc) (r : BurrowReq), (s.bankAt b).state = .on → (s.bankAt b).queued = false → (s.bankAt b).queue = [a] →
    s.brw.copy = none → s.brw.reqs = [r] → a.of r.pkt = true → r.left = 1 → r.err = .ok → r.parts = [] →
    r.pkt.hdr.addr.toNat = 0x40000000 + a.base → r.pkt.hdr.bytes ≤ 32 - a.base % 32 →
    let at_ := s.now + s.nocNs ((s.bankAt b).startOf a - s.cycNow)
    (a.op = .read r.pkt.hdr.bytes → r.pkt.hdr.isWrite = false →
      (∃ t, exec (.bankWordAccess b 0 0) s = .next t ∧ (t.bankAt b).queue = [] ∧ t.brw.reqs = [] ∧ t.now = at_ ∧
        (t.bankAt b).freeAt = (s.bankAt b).startOf a + 1 ∧ (∀ x, t.ram.read x = s.ram.read x) ∧ t.evt = s.evt ∧
        Sent s t [r.pkt.rsp .ok (s.ram.readN (0x40000000 + a.base) r.pkt.hdr.bytes)]) ∧
      (∃ t, exec (.bankWordAccess b 5 0) s = .next t ∧ t.brw.ceCount = satAdd s.brw.ceCount 2 ∧ (t.bankAt b).ceLast = some (2, a.word) ∧
        (∀ x, t.ram.read x = s.ram.read x)) ∧
      ((a.word, 1) ∉ (s.bankAt b).bad → ∃ t, exec (.bankWordAccess b 0 2) s = .next t ∧ t.brw.ueCount = satInc s.brw.ueCount ∧
        (t.bankAt b).bad = (if (s.bankAt b).bad.length < 4 then (s.bankAt b).bad ++ [(a.word, 1)] else (s.bankAt b).bad) ∧
        t.evt = s.evt.push (t.record (some a.acting) .brwUe (ofFields [(0, b.val), (5, a.word % 65536), (21, 1), (23, 0), (24, a.acting.toNat)])) ∧
        Sent s t [r.pkt.rsp .poison []] ∧ (∀ x, t.ram.read x = s.ram.read x))) ∧
    (∀ d, a.op = .write d → d.length = r.pkt.hdr.bytes → r.pkt.hdr.isWrite = true → ∃ t, exec (.bankWordAccess b 0 0) s = .next t ∧
      t.ram = s.ram.writeN (0x40000000 + a.base) d ∧ t.ram.readN (0x40000000 + a.base) d.length = d ∧
      (∀ x, x < 0x40000000 + a.base ∨ 0x40000000 + a.base + d.length ≤ x → t.ram.read x = s.ram.read x) ∧
      (t.bankAt b).freeAt = (s.bankAt b).startOf a + (if a.op.rmw (a.base % 32) then 3 else 1) ∧ Sent s t [r.pkt.rsp .ok []])) ∧
  (∀ s (b : Fin 32) x y, (s.bankAt b).state = .clearing → exec (.bankWordAccess b x y) s = .next s) ∧
  (∀ s (b : Fin 32), s.scrubs b = true → let c := max s.cycNow (max (s.bankAt b).freeAt ((s.bankAt b).scrubAt + 1))
    ((s.bankAt b).scrub < 66047 → ∃ t, exec (.bankScrubRead b 0 0) s = .next t ∧ t.now = s.now + s.nocNs (c - s.cycNow) ∧
      t.bankAt b = { s.bankAt b with scrub := (s.bankAt b).scrub + 1, scrubAt := c, writeback := none } ∧ t.ram = s.ram ∧ t.evt = s.evt) ∧
    ((s.bankAt b).scrub = 66047 → (s.bankAt b).lapStop = none → ∃ t, exec (.bankScrubRead b 0 0) s = .next t ∧
      (t.bankAt b).scrub = 0 ∧ (t.bankAt b).lapAt = t.now ∧ (t.bankAt b).lap = BitVec.ofNat 32 ((t.now - (s.bankAt b).lapAt) / 1000)) ∧
    (∃ t, exec (.bankScrubRead b 2 0) s = .next t ∧ t.brw.ceCount = satInc s.brw.ceCount ∧
      (t.bankAt b).ceLast = some (1, (s.bankAt b).scrub) ∧ (t.bankAt b).writeback = some (s.bankAt b).scrub)) ∧
  (∀ s (b : Fin 32), s.scrubs b = false → exec (.bankScrubRead b 1 0) s = .next s)

/-- A remap command is refused with result 1 for an entry that is VALID or spent, 3 for a bank that is not ON, 5 while a
copy or a Ledger write of one runs; else the copy runs, for 128 NOC cycles, and its end makes the entry VALID for the
row and raises BRW_REMAP_DONE; with PERSIST the Ledger update is queued. In RUN, OFF asked of an ON bank with nothing
queued loses its bytes; RETAIN keeps them; ON asked of an OFF bank queues its clear; code 3 is ignored. The first bank
in turn asks for its step while fewer than 8 clear; a clear ends after 8,256 NOC cycles with the bank ON, its bytes 0
and its known-bad list empty. A RETAIN bank asked for ON is ON. (R211, R212, R213, R214, R215) -/
def Obligations.BurrowRemap : Prop :=
  (∀ s m v, s.admitsWrite m 0x700040 = true → let b := field (v : Word) 0 5; let e := field v 5 3
    ∃ t, exec (.brwRemap m v) s = .next t ∧ t.bus = ⟨m, .ok, 0⟩ ∧ t.brw.rmWhere = BitVec.ofNat 8 (b + 32 * e) ∧
      (if ((s.bankAt b).remap.getD e {}).valid ∨ (s.bankAt b).spent.getLsbD e then t.brw.rmResult = 1 ∧ t.brw.copy = s.brw.copy
      else if (s.bankAt b).state ≠ .on then t.brw.rmResult = 3 ∧ t.brw.copy = s.brw.copy
      else if s.brw.copy.isSome ∨ s.brw.rmPersist then t.brw.rmResult = 5 ∧ t.brw.copy = s.brw.copy
      else t.brw.rmResult = 0 ∧ t.brw.copy = some (b, e, field v 8 10, v.getLsbD 24) ∧ t.brw.copyAt = s.now)) ∧
  (∀ s b e row p, s.brw.copy = some (b, e, row, p) → ∃ t, exec .brwRemapCopyDone s = .next t ∧ t.brw.copy = none ∧
    t.now = max s.now (s.brw.copyAt + s.nocNs 128) ∧ (t.bankAt b).remap.getD e {} = { valid := true, persisted := false, item := row } ∧
    t.brw.rmResult = 0 ∧ t.brw.rmPersist = p ∧
    t.evt.queue = (s.evt.push ((s.advanceTo (s.brw.copyAt + s.nocNs 128)).record none .brwRemapDone (ofFields [(0, b), (5, e)]))).queue ∧
    (p = false → t.evt.fifo = s.evt.fifo) ∧ (p = true → s.evt.fifo.length < 16 → t.evt.fifo = s.evt.fifo ++ [.brw b e row])) ∧
  (∀ s m (b : Fin 32) v, s.admitsWrite m (BitVec.ofNat 48 (0x700100 + 4 * b.val)) = true → field (v : Word) 0 2 = 3 →
    exec (.brwBankCtrlWrite m b v) s = .next (s.answer m .ok 0)) ∧
  (∀ s m (b : Fin 32) v, s.admitsWrite m (BitVec.ofNat 48 (0x700100 + 4 * b.val)) = true → s.mode = .run →
    (s.bankAt b).queued = false →
    (field (v : Word) 0 2 = 2 → (s.bankAt b).state = .on → (s.bankAt b).queue = [] → ∃ t, exec (.brwBankCtrlWrite m b v) s = .next t ∧
      (t.bankAt b).state = .off ∧ (t.bankAt b).ctrl = 2 ∧
      (∀ x, bankOf x = b.val → x < 0x4000000 → t.ram.read (0x40000000 + x) = 0) ∧
      ∀ x, bankOf x ≠ b.val → t.ram.read (0x40000000 + x) = s.ram.read (0x40000000 + x)) ∧
    (field v 0 2 = 1 → (s.bankAt b).state = .on → ∃ t, exec (.brwBankCtrlWrite m b v) s = .next t ∧ (t.bankAt b).state = .retain ∧ t.ram = s.ram) ∧
    (field v 0 2 = 0 → (s.bankAt b).state = .off → ∃ t, exec (.brwBankCtrlWrite m b v) s = .next t ∧ (t.bankAt b).queued = true ∧
      b.val ∈ t.brw.clearQ ∧ (t.bankAt b).state = .off)) ∧
  (∀ s b l, s.brw.clearQ = b :: l → (8 ≤ s.clears → exec .bankClearStart s = .next s) ∧
    (s.clears < 8 → s.pwr.steps = [] → s.affords 250 = true → 250 ≤ s.pwr.depth.toNat → ∃ t, exec .bankClearStart s = .next t ∧
      t.brw.clearQ = l ∧ (t.bankAt b).state = .clearing ∧ (t.bankAt b).clearAt = s.now ∧ t.pwr.tokens.toNat = s.pwr.tokens.toNat - 250) ∧
    (s.clears < 8 → s.affords 250 = false → ∃ t, exec .bankClearStart s = .next t ∧ t.brw.clearQ = l ∧
      t.pwr.steps = s.pwr.steps ++ [(.bankClear b, 250)])) ∧
  (∀ s (b : Fin 32), (s.bankAt b).state = .clearing → (s.bankAt b).ctrl = 0 → ∃ t, exec (.bankClearDone b) s = .next t ∧
    (t.bankAt b).state = .on ∧ (t.bankAt b).bad = [] ∧ t.now = max s.now ((s.bankAt b).clearAt + s.nocNs 8256) ∧
    (∀ x, bankOf x = b.val → x < 0x4000000 → t.ram.read (0x40000000 + x) = 0)) ∧
  (∀ s (b : Fin 32), (s.bankAt b).state = .retain → (s.bankAt b).ctrl = 0 → s.mode ≠ .deep → ∃ t, exec (.bankRetainToOn b) s = .next t ∧
    (t.bankAt b).state = .on ∧ t.ram = s.ram)

/-- A request to a channel that is not enabled, or one that is neither READ nor WRITE, is answered DECODE. With MEM running, a
READ joins the queue of its port; a full queue of 64 back-pressures. A whole-line WRITE that finds its queue empty, to a
line with no remap entry, stores its 64 bytes and is answered OK. A READ of one line that comes back clean, or with one
wrong symbol, which is counted and recorded, is answered OK with its bytes; one that comes back with two wrong symbols in a
beat is answered POISON, counted, listed and reported. The patrol reads a line
of an enabled channel every INTERVAL ns and starts again after the last. (R228, R229, R230, R231, R235) -/
def Obligations.DdrPort : Prop :=
  (∀ s p, s.on = true → let c := (s.ddrLoc (ddrOff (Packet.hdr p))).1
    ((s.chAt c).enabled = false ∨ (p.hdr.isRead = false ∧ p.hdr.isWrite = false)) →
    exec (.ddrPortRequest p) s = .next ((s.takeTarget p).respond p .decode [])) ∧
  (∀ s p, s.on = true → s.running .mem = true → let c := (s.ddrLoc (ddrOff (Packet.hdr p))).1; let a := (s.reach .mem).1
    (s.chAt c).enabled = true → (p.hdr.isRead = true ∨ p.hdr.isWrite = true) →
    (64 ≤ (s.chAt c).portQ.length → exec (.ddrPortRequest p) s = .next a) ∧
    (p.hdr.isRead = true → (s.chAt c).portQ = [] → exec (.ddrPortRequest p) s =
      .next ((a.takeTarget p).modCh c fun k => { k with portQ := [p] }))) ∧
  (∀ s p, s.on = true → s.running .mem = true → let o := ddrOff (Packet.hdr p); let c := (s.ddrLoc o).1
    (s.chAt c).enabled = true → (s.chAt c).selfRefresh = false → p.hdr.isWrite = true → (s.chAt c).portQ = [] → o % 64 = 0 →
    p.hdr.bytes = 64 → p.data.length = 64 → s.lineHeld o 64 = false → s.lineEntry c (s.lineOf o).2 = none →
    ∃ t, exec (.ddrPortRequest p) s = .next t ∧ t.ram = s.ram.writeN (0x10000000000 + o) p.data ∧
      (∀ x, x < 0x10000000000 + o ∨ 0x10000000000 + o + 64 ≤ x → t.ram.read x = s.ram.read x) ∧
      (t.chAt c).portQ = [] ∧ (t.chAt c).bad = (s.chAt c).bad.filter (· != (s.lineOf o).2) ∧ Sent s t [p.rsp .ok []]) ∧
  (∀ s p, s.on = true → s.running .mem = true → let o := ddrOff (Packet.hdr p); let c := (s.ddrLoc o).1
    (s.chAt c).enabled = true → (s.chAt c).selfRefresh = false → (s.chAt c).portQ = [p] → p.hdr.isRead = true → p.hdr.isPush = false →
    o % 64 + p.hdr.bytes ≤ 64 → s.lineHeld o p.hdr.bytes = false → s.lineEntry c (s.lineOf o).2 = none →
    exec (.ddrReadReturn p [[]]) s = .next ((s.modCh c fun k => { k with portQ := [] }).respond p .ok
      (s.ram.readN (0x10000000000 + o) p.hdr.bytes)) ∧
    (∀ beat sym, ∃ t, exec (.ddrReadReturn p [[(beat, sym)]]) s = .next t ∧ (t.chAt c).ceCount = satInc (s.chAt c).ceCount ∧
      (t.chAt c).ceLast = some ((s.lineOf o).2, BitVec.ofNat 4 beat.val, BitVec.ofNat 4 sym.val) ∧
      Sent s t [p.rsp .ok (s.ram.readN (0x10000000000 + o) p.hdr.bytes)]) ∧
    (∀ r, LineRead.bad r = true → (s.lineOf o).2 ∉ (s.chAt c).bad → (s.chAt c).bad.length < 8 → ∃ t, exec (.ddrReadReturn p [r]) s = .next t ∧
      (t.chAt c).ueCount = satInc (s.chAt c).ueCount ∧ (t.chAt c).bad = (s.chAt c).bad ++ [(s.lineOf o).2] ∧ t.ram = s.ram ∧
      t.evt = s.evt.push (s.record (some (s.acting p.hdr)) .memUe (ofFields [(0, c), (2, (s.lineOf o).2)])) ∧
      Sent s t [p.rsp .poison []])) ∧
  (∀ s (c : Fin 4), (s.chAt c).enabled = true → (s.chAt c).selfRefresh = false → (s.chAt c).patrolEn = true →
    (s.chAt c).patrolPos + 1 < s.chLines c → let a := s.advanceTo ((s.chAt c).patrolLast + (s.chAt c).interval.toNat)
    exec (.patrolRead c []) s = .next (a.modCh c fun k => { k with patrolPos := k.patrolPos + 1, patrolLast := a.now })) ∧
  (∀ s (c : Fin 4), (s.chAt c).enabled = true → (s.chAt c).selfRefresh = false → (s.chAt c).patrolEn = true →
    (s.chAt c).patrolPos + 1 = s.chLines c → ∃ t, exec (.patrolRead c []) s = .next t ∧ (t.chAt c).patrolPos = 0 ∧
      (t.chAt c).patrolLap = BitVec.ofNat 32 ((t.now - (s.chAt c).patrolAt) / 1000000)) ∧
  (∀ s (c : Fin 4) r, (s.chAt c).enabled = false → exec (.patrolRead c r) s = .next s)

/-- A remap command is refused with result 1 for a VALID entry or one that a later remap of its line has cleared, 2 for a
line beyond the channel, 3 for a channel not enabled or in self-refresh, 5 while a copy or a Ledger write of one runs;
else the copy runs, and its end puts the line's bytes in the entry's store, with its POISON mark, makes the entry
VALID and raises MEM_REMAP_DONE; with PERSIST the Ledger update is queued. A retirement hint for a page beyond the
capacity has result 2; one for a page within it is busy until its Ledger write; while busy another does nothing.
(R232, R233, R234) -/
def Obligations.DdrUpkeep : Prop :=
  (∀ s m v, s.admitsWrite m 0x800040 = true → let c := field (v : Word) 0 2; let e := field v 2 4
    ∃ t, exec (.memRemap m v) s = .next t ∧ t.bus = ⟨m, .ok, 0⟩ ∧
      (if ((s.chAt c).remap.getD e {}).valid ∨ (s.chAt c).spentLines.getLsbD e then t.mem.rmResult = 1 ∧ t.mem.copy = s.mem.copy
      else if s.chLines c ≤ s.mem.rmLine.toNat then t.mem.rmResult = 2 ∧ t.mem.copy = s.mem.copy
      else if (s.chAt c).enabled = false ∨ (s.chAt c).selfRefresh = true then t.mem.rmResult = 3 ∧ t.mem.copy = s.mem.copy
      else if s.mem.copy.isSome ∨ s.mem.rmPersist then t.mem.rmResult = 5 ∧ t.mem.copy = s.mem.copy
      else t.mem.rmResult = 0 ∧ t.mem.copy = some (c, e, s.mem.rmLine.toNat, v.getLsbD 6))) ∧
  (∀ s (e : Fin 16) line p r, s.mem.interleave = false → s.mem.copy = some (0, e.val, line, p) → line < s.chLines 0 → (s.chAt 0).portQ = [] →
    s.lineEntry 0 line = none → ∃ t, exec (.memRemapCopyDone r) s = .next t ∧ t.mem.copy = none ∧ t.mem.rmPersist = p ∧
      (t.chAt 0).remap.getD e {} = { valid := true, persisted := false, item := line } ∧ (t.chAt 0).storeBad.getLsbD e = LineRead.bad r ∧
      (∀ j < 64, (t.chAt 0).store.getD (64 * e.val + j) 0 = s.ram.read (0x10000000000 + 64 * line + j)) ∧
      t.evt.queue = (s.evt.push (s.record none .memRemapDone (ofFields [(0, 0), (2, e.val)]))).queue ∧
      (p = true → s.evt.fifo.length < 16 → t.evt.fifo = s.evt.fifo ++ [.mem 0 e line])) ∧
  (∀ s m v, s.admitsWrite m 0x800050 = true →
    (s.mem.retireBusy = true → exec (.memRetireHint m v) s = .next (s.answer m .ok 0)) ∧
    (s.mem.retireBusy = false → s.ddrBytes ≤ 4096 * field (v : Word) 0 26 → exec (.memRetireHint m v) s =
      .next ((s.modMem fun x => { x with retire := 2 }).answer m .ok 0)) ∧
    (s.mem.retireBusy = false → 4096 * field v 0 26 < s.ddrBytes → s.evt.fifo.length < 16 → ∃ t, exec (.memRetireHint m v) s = .next t ∧
      t.mem = { s.mem with retireBusy := true } ∧ t.evt = { s.evt with fifo := s.evt.fifo ++ [.retire (field v 0 26)] }))

/-- A push for an extent outside the range is answered DECODE; one from a master that is not OWNER is answered
ACCESS_DENIED and counted; a disabled queue answers QUEUE_OFF; with no free token the answer is BUSY and its error bit
is set; else it is answered OK, takes a token and joins the queue. A READ at the head whose data has come back
deposits its packet and its token is unread; a WRITE without ACK_WRITES stores its bytes and frees its token. One
whose read has not come back stays. One whose channel has been disabled deposits POISON (the model's choice,
notes/assumptions/50.md). A configuration write sets ENABLE, ACK_WRITES and OWNER and leaves the tokens
alone. (R236, R237, R238, R239, R243) -/
def Obligations.DqPushes : Prop :=
  (∀ s p, s.on = true → s.running .mem = true → (Packet.hdr p).isPush = true → field p.hdr.addr 45 3 = 0 → pushRead p.hdr = false →
    let q := pushQueue p.hdr; let a := (s.reach .mem).1.takeTarget p
    (s.extentOk (pushOff p.hdr) p.hdr.bytes = false → ∃ t, exec (.dqPush p) s = .next t ∧ Sent s t [p.rsp .decode []] ∧
      ∀ k, t.dqAt k = s.dqAt k) ∧
    (s.extentOk (pushOff p.hdr) p.hdr.bytes = true →
      (s.acting p.hdr ≠ (s.dqAt q).owner → ∃ t, exec (.dqPush p) s = .next t ∧ Sent s t [p.rsp .accessDenied []] ∧
        (∀ k, t.dqAt k = s.dqAt k) ∧ t.fus.denyCount = satInc s.fus.denyCount) ∧
      (s.acting p.hdr = (s.dqAt q).owner → s.denied (s.acting p.hdr) (13 + regionOf s.ddrBounds (pushOff p.hdr / 2 ^ 30)) false true = false →
        ((s.dqAt q).enable = false → ∃ t, exec (.dqPush p) s = .next t ∧ Sent s t [p.rsp .queueOff []] ∧ ∀ k, t.dqAt k = s.dqAt k) ∧
        ((s.dqAt q).enable = true → (s.dqAt q).free = 0 → exec (.dqPush p) s =
          .next ((a.modDq q fun d => { d with err := setBit d.err 0 true }).respond p .busy [])) ∧
        ((s.dqAt q).enable = true → 0 < (s.dqAt q).free → exec (.dqPush p) s =
          .next ((a.modDq q fun d => { d with
            free := d.free - 1, outstanding := d.outstanding + 1
            pushes := d.pushes ++ [{ pkt := p, isRead := false, off := pushOff p.hdr, len := p.hdr.bytes, got := none }] }).respond p .ok []))))) ∧
  (∀ s (q : Fin 64) (x : DqPush) l, s.on = true → s.running .mem = true → (s.dqAt q).pushes = x :: l → (s.dqAt q).waits = [] →
    (s.chAt (s.ddrLoc x.off).1).enabled = true → (s.chAt (s.ddrLoc x.off).1).selfRefresh = false → s.lineHeld x.off x.len = false →
    (x.isRead = true → x.got = some [] → ∃ t, exec (.dqPushComplete q) s = .next t ∧ (t.dqAt q).pushes = l ∧
      (t.dqAt q).packets = (s.dqAt q).packets ++ [{ poison := false, data := s.readDdr x.off x.len }] ∧
      (t.dqAt q).unread = (s.dqAt q).unread + 1 ∧ (t.dqAt q).outstanding = (s.dqAt q).outstanding - 1 ∧
      (t.dqAt q).free = (s.dqAt q).free ∧ t.ram = s.ram) ∧
    (x.isRead = false → (s.dqAt q).ackWrites = false → x.off % 64 = 0 → x.len = 64 → x.got = none → x.pkt.data.length = 64 →
      s.lineEntry (s.ddrLoc x.off).1 (s.lineOf x.off).2 = none → ∃ t, exec (.dqPushComplete q) s = .next t ∧ (t.dqAt q).pushes = l ∧
        t.ram = s.ram.writeN (0x10000000000 + x.off) x.pkt.data ∧ (t.dqAt q).free = (s.dqAt q).free + 1 ∧
        (∀ a, a < 0x10000000000 + x.off ∨ 0x10000000000 + x.off + 64 ≤ a → t.ram.read a = s.ram.read a) ∧
        (t.dqAt q).outstanding = (s.dqAt q).outstanding - 1 ∧ (t.dqAt q).beats = (s.dqAt q).beats + 1) ∧
    (x.isRead = true → x.got = none → exec (.dqPushComplete q) s = .next s)) ∧
  (∀ s (q : Fin 64) (x : DqPush) l, s.on = true → (s.dqAt q).pushes = x :: l → (s.dqAt q).waits = [] → x.isRead = true →
    (s.chAt (s.ddrLoc x.off).1).enabled = false → ∃ t, exec (.dqPushComplete q) s = .next t ∧ (t.dqAt q).pushes = l ∧
      (t.dqAt q).packets = (s.dqAt q).packets ++ [{ poison := true, data := [] }]) ∧
  (∀ s m (q : Fin 64) v, s.admitsWrite m (BitVec.ofNat 48 (0x808000 + 0x40 * q.val)) = true → exec (.dqCfgWrite m q v) s =
    .next ((s.modDq q fun d => { d with
      enable := BitVec.getLsbD (v : Word) 0, ackWrites := v.getLsbD 1, owner := BitVec.ofNat 6 (field v 8 6) }).answer m .ok 0))

/-- A wait that is no multiple of 64 bytes is answered DECODE, one from a master that is not OWNER ACCESS_DENIED. A wait
that finds a packet takes all of a packet no longer than itself, whose token is then free; one that finds nothing
outstanding is answered BUSY, or QUEUE_OFF when the queue is disabled; one that finds a push outstanding is held. A
drop discards the head packet and is answered OK, and a DROP command does so for master 0 only. At the stale limit
STALE is set and MEM_DQ_STALE raised once. At 2^48 cycles the wait counter's overflow bit is set. (R236, R240, R241,
R242, R244) -/
def Obligations.DqWaitDrop : Prop :=
  (∀ s p, s.on = true → let q := windowQueue (Packet.hdr p); let a := s.takeTarget p
    (p.hdr.bytes % 64 ≠ 0 → exec (.dqWait p) s = .next (a.respond p .decode [])) ∧
    (p.hdr.bytes % 64 = 0 →
      (s.acting p.hdr ≠ (s.dqAt q).owner → ∃ t, exec (.dqWait p) s = .next t ∧ t.vnx = (a.respond p .accessDenied []).vnx ∧ t.mem = s.mem) ∧
      (s.acting p.hdr = (s.dqAt q).owner →
        (∀ k l, (s.dqAt q).waits = [] → (s.dqAt q).packets = k :: l → k.poison = false → 0 < k.data.length → k.data.length ≤ p.hdr.bytes →
          ∃ t, exec (.dqWait p) s = .next t ∧ t.vnx = (a.respond p .ok k.data).vnx ∧ (t.dqAt q).packets = l ∧
            (t.dqAt q).unread = (s.dqAt q).unread - 1 ∧ (t.dqAt q).free = (s.dqAt q).free + 1 ∧ (t.dqAt q).stale = false ∧
            (t.dqAt q).beats = (s.dqAt q).beats + BitVec.ofNat 48 (beatsOf k.data.length)) ∧
        ((s.dqAt q).packets = [] → (s.dqAt q).outstanding = 0 → exec (.dqWait p) s =
          .next (a.respond p (if (s.dqAt q).enable then .busy else .queueOff) [])) ∧
        ((s.dqAt q).waits = [] → (s.dqAt q).packets = [] → 0 < (s.dqAt q).outstanding → ∃ t, exec (.dqWait p) s = .next t ∧
          (t.dqAt q).waits = [p] ∧ (t.dqAt q).staleFrom = none ∧ t.vnx = a.vnx)))) ∧
  (∀ s p, s.on = true → let q := windowQueue (Packet.hdr p); let a := s.takeTarget p
    (s.acting p.hdr ≠ (s.dqAt q).owner → ∃ t, exec (.dqDrop p) s = .next t ∧ t.vnx = (a.respond p .accessDenied []).vnx ∧ t.mem = s.mem) ∧
    (s.acting p.hdr = (s.dqAt q).owner → ∃ t, exec (.dqDrop p) s = .next t ∧ t.vnx = (a.respond p .ok []).vnx ∧
      (t.dqAt q).packets = (s.dqAt q).packets.drop 1 ∧
      (t.dqAt q).free = (s.dqAt q).free + if (s.dqAt q).packets = [] then 0 else 1)) ∧
  (∀ s m (q : Fin 64) v, s.admitsWrite m (BitVec.ofNat 48 (0x80800C + 0x40 * q.val)) = true →
    (m ≠ 0 → exec (.dqCmdDrop m q v) s = .next (s.answer m .ok 0)) ∧
    (m = 0 → ∃ t, exec (.dqCmdDrop m q v) s = .next t ∧ t.bus = ⟨0, .ok, 0⟩ ∧ (t.dqAt q).packets = (s.dqAt q).packets.drop 1 ∧ t.vnx = s.vnx)) ∧
  (∀ s (q : Fin 64) x, (s.dqAt q).staleFrom = some x → (s.dqAt q).staleLimit ≠ 0 →
    ((s.dqAt q).stale = true → exec (.dqStaleTimeout q) s = .next s) ∧
    ((s.dqAt q).stale = false → ∃ t, exec (.dqStaleTimeout q) s = .next t ∧ t.now = max s.now (x + (s.dqAt q).staleLimit.toNat) ∧
      t.dqAt q = { s.dqAt q with stale := true } ∧ t.evt.raised = s.evt.raised + 1)) ∧
  (∀ s (q : Fin 64) x, (s.dqAt q).waitFrom = some x → s.nocStopped = false → ∃ t, exec (.waitcycWrap q) s = .next t ∧
    t.now = max s.now (x + s.nocNs (2 ^ 48 - (s.dqAt q).waitcyc.toNat)) ∧ (t.dqAt q).err.getLsbD 2 = true ∧
    (t.dqAt q).waitFrom = some t.now ∧ (t.dqAt q).waits = (s.dqAt q).waits)

/-- Taps within full swing are taken and clear FIR_REJECT; others are rejected and the taps stay. A lane that trains is
trained, with the taps training left, and a link in TRAINING all of whose lanes have trained aligns and starts its
codeword stream. Training that has not converged after 500 ms fails with LAN_TRAIN_FAIL and is retried 100 ms later,
counting an attempt. An eye scan is busy until its mismatches, no more than the bits it compared and at most 24 bits of
them, are reported; a second start while it is busy does nothing. (R249, R251, R252, R256, R258) -/
def Obligations.Lanes : Prop :=
  (∀ s m (n : Fin 96) v, s.admitsWrite m (BitVec.ofNat 48 (0x901008 + 0x40 * n.val)) = true →
    (firOk v = true → exec (.lanTxfirWrite m n v) s = .next ((s.modLane n fun l => { l with fir := v, firReject := false }).answer m .ok 0)) ∧
    (firOk v = false → ∃ t, exec (.lanTxfirWrite m n v) s = .next t ∧ t.laneAt n = { s.laneAt n with firReject := true })) ∧
  (∀ s (n : Fin 96), (s.laneAt n).training.isSome = true → ∃ t, exec (.laneTrained n) s = .next t ∧
    t.laneAt n = { s.laneAt n with trained := true, training := none, fir := (s.laneAt n).trainTaps n s.now } ∧
    ∀ k : Fin 8, (s.linkAt k).state = .training → n.val ∈ (s.linkAt k).lanes →
      (∀ j ∈ (s.linkAt k).lanes, j = n.val ∨ (s.laneAt j).trained = true) →
      t.linkAt k = { s.linkAt k with state := .aligning, streamAt := s.now, cwNext := 0 }) ∧
  (∀ s (n : Fin 96), (s.laneAt n).training = none → exec (.laneTrained n) s = .next s ∧ exec (.laneTrainTimeout n) s = .next s) ∧
  (∀ (l : Lane) n now, firOk (l.trainTaps n now) = true ∨ l.trainTaps n now = l.fir) ∧
  (∀ s (n : Fin 96) x, (s.laneAt n).training = some x → let a := s.advanceTo (x + 500000000)
    exec (.laneTrainTimeout n) s = .next ((a.modLane n fun l => { l with training := none, retryAt := some (a.now + 100000000) }).raise .lanTrainFail
      (BitVec.ofNat 32 n.val))) ∧
  (∀ s (n : Fin 96) x, (s.laneAt n).retryAt = some x → s.quadMode (n.val / 4) ≠ 0 → let a := s.advanceTo x
    exec (.laneTrainRetry n) s = .next (a.modLane n fun l =>
      { l with trained := false, training := some a.now, retryAt := none, attempts := satInc l.attempts })) ∧
  (∀ s m (n : Fin 96) v, s.admitsWrite m (BitVec.ofNat 48 (0x901018 + 0x40 * n.val)) = true → ∃ t, exec (.eyeScan m n v) s = .next t ∧
    t.laneAt n = if (s.laneAt n).eyeBusy then s.laneAt n
      else { s.laneAt n with eyeCtrl := (v : Word) &&& 0x77FFF, eyeBusy := true, eyeDone := false }) ∧
  (∀ s (n : Fin 96) x, (s.laneAt n).eyeBusy = true → exec (.eyeScanDone n x) s = .next (s.modLane n fun l =>
    { l with eyeErr := BitVec.ofNat 24 (min (min x (2 ^ (16 + 2 * field l.eyeCtrl 16 3))) 0xFFFFFF), eyeDone := true, eyeBusy := false }))

/-- An aligned link whose lanes lie within 16 ns sends LINK_INFO and waits in INIT. There, a LINK_INFO of version 1 and the
link's own width from another device brings it UP once its own has gone out, with SPN_LINK_UP; in LOCK, before an
election, it starts the election's 10 ms. One of another width or version, or from the device's own number, takes it down
with cause INFO. A DOWN, the loss of codeword lock, and a lane failure take it down with causes PEER, LOCK_LOST and LANE,
and clearing ENABLE with cause DISABLED after DOWN was sent; it then holds nothing, and every request tracked on it is
answered REMOTE_UNREACHABLE. The upstream of a follower that watches the span reference fails with its link. Setting ENABLE
again starts training once the quad's PLL is locked. (R248, R255, R256, R257, R263, R267, R269, R276, R278) -/
def Obligations.LinkUpDown : Prop :=
  (∀ s (k : Fin 8) skew, ((s.linkAt k).state = .aligning → skew ≤ 16000 → exec (.spanAlignDone k skew) s =
      .next ((s.modLink k fun l => { l with state := .init }).modLink k fun l => { l with txCtl := l.txCtl ++ [.linkInfo (s.ownInfo k)] })) ∧
    (((s.linkAt k).state ≠ .aligning ∨ 16000 < skew) → exec (.spanAlignDone k skew) s = .next s)) ∧
  (∀ s (k : Fin 8) i, s.ctlAt k (.linkInfo i) = none → exec (.linkInfo k i) s = .next s) ∧
  (∀ s (k : Fin 8) i y, s.ctlAt k (.linkInfo i) = some y → let a := s.ctlTaken k (.linkInfo i) y
    (s.mode = .lock → (s.linkAt k).state = .init → (s.linkAt k).infoSent = true → LinkInfo.dev i ≠ s.tbs.devNum → i.version = 1 →
      i.width.toNat = field (s.linkAt k).cfg 5 2 → ∃ t, exec (.linkInfo k i) s = .next t ∧ (t.linkAt k).state = .up ∧
        (t.linkAt k).farDev = i.dev ∧ (t.linkAt k).farLink = i.link ∧ (t.linkAt k).farCaps = i.caps ∧
        t.evt = a.evt.push (a.record none .spnLinkUp (ofFields [(0, k.val), (8, i.dev.toNat)])) ∧
        (s.tbs.elected = false → s.tbs.electAt = none → s.tbs.noMaster = none → t.tbs.electAt = some (a.now + 10000000))) ∧
    ((s.linkAt k).state = .init → (s.linkAt k).infoSent = false → i.dev ≠ s.tbs.devNum → i.version = 1 →
      i.width.toNat = field (s.linkAt k).cfg 5 2 →
      exec (.linkInfo k i) s = .next (a.modLink k fun l => { l with infoOk := true, farDev := i.dev, farLink := i.link, farCaps := i.caps })) ∧
    ((s.linkAt k).state = .init → (i.dev = s.tbs.devNum ∨ i.version ≠ 1 ∨ i.width.toNat ≠ field (s.linkAt k).cfg 5 2) →
      ∃ t, exec (.linkInfo k i) s = .next t ∧ (t.linkAt k).cause = 4 ∧ (t.linkAt k).state ≠ .up ∧ (t.linkAt k).state ≠ .init) ∧
    ((s.linkAt k).state ≠ .init → exec (.linkInfo k i) s = .next a)) ∧
  (∀ s (k : Fin 8), ((s.linkAt k).state = .up ∨ (s.linkAt k).state = .init) → exec (.codewordLockLost k) s = .next (s.linkLost k 2)) ∧
  (∀ s (k : Fin 8), (s.linkAt k).state = .up → exec (.spanLaneFailure k) s = .next (s.linkLost k 5)) ∧
  (∀ s (k : Fin 8) c, (s.timingAt k (.down c) none = none → exec (.down k c) s = .next s) ∧
    ∀ y, s.timingAt k (.down c) none = some y → exec (.down k c) s = .next ((s.timingTaken k (.down c) none y).linkLost k 7)) ∧
  (∀ (a : State) (k : Fin 8) c, (a.linkAt k).state ≠ .down → (a.linkAt k).autoRetrain = false → a.spn.upstream ≠ some k →
    let t := a.linkLost k c
    (t.linkAt k).state = .down ∧ (t.linkAt k).cause = BitVec.ofNat 4 c ∧ (t.linkAt k).replay = [] ∧ (t.linkAt k).txReq = [] ∧
      (t.linkAt k).rxReq = [] ∧ t.evt = a.evt.push (a.record none .spnLinkDown (BitVec.ofNat 32 (k.val + 16 * c))) ∧
      Sent a t ((a.spn.tracked.filter fun x => x.link == k.val).map fun x => x.pkt.rsp .remoteUnreachable []) ∧
      t.spn.tracked = a.spn.tracked.filter fun x => x.link != k.val) ∧
  (∀ (a : State) (k : Fin 8) c, (a.linkAt k).state = .up → a.clk.watchSpan = true → a.tbs.role = 2 → a.spn.upstream = some k →
    a.linkLost k c = (a.linkDown k c).srcFail 1) ∧
  (∀ s (k : Fin 8) c, (s.linkAt k).state = .down → s.linkLost k c = s ∧ exec (.codewordLockLost k) s = .next s ∧
    exec (.spanLaneFailure k) s = .next s) ∧
  (∀ s m (k : Fin 8) v, s.admitsWrite m (BitVec.ofNat 48 (0xA01000 + 0x40 * k.val)) = true →
    ((s.linkAt k).state = .up → (s.linkAt k).enable = true → s.spn.upstream ≠ some k → ∃ t, exec (.spnLinkDisable m k v) s = .next t ∧
      (t.linkAt k).state = .down ∧ (t.linkAt k).enable = false ∧ (t.linkAt k).cause = 1 ∧
      ∃ n cw, (t.linkAt k).sent = some (n, Codeword.payload cw) ∧ cw.timing = some (.down 1)) ∧
    ((s.linkAt k).state = .down → (s.linkAt k).enable = false → (s.linkAt k).configured = true →
      (s.clk.good.getLsbD (16 + field (s.linkAt k).cfg 0 5) = true → ∃ t, exec (.spnLinkEnable m k v) s = .next t ∧
        (t.linkAt k).state = .training ∧ (t.linkAt k).enable = true ∧ ∀ j ∈ (s.linkAt k).lanes, (t.laneAt j).training = some s.now) ∧
      (s.clk.good.getLsbD (16 + field (s.linkAt k).cfg 0 5) = false → ∃ t, exec (.spnLinkEnable m k v) s = .next t ∧
        (t.linkAt k).state = .down ∧ (t.linkAt k).enable = true ∧ (t.linkAt k).want = true)))

/-- A link past TRAINING starts the first codeword of its stream that begins now or later. UP, with nothing to resend and no
timing message waiting, a waiting control message leaves in it under the next sequence number and is held for replay; in
INIT the LINK_INFO leaves. A codeword that cannot be corrected or whose CRC fails is counted, delivers nothing and asks for
replay with NAK; one that was corrected is counted. A good one in order delivers its item and moves the expected number on;
one beyond a gap asks for replay. An ACK releases the items it covers, and a timing message waits with its receive stamp. A
NAK or REPLAY_TIMEOUT resends all that is held, and the ninth time without progress takes the link down with cause REPLAY.
A link that is DOWN or in TRAINING sends and takes nothing. (R256, R258, R259, R260, R261, R262, R264) -/
def Obligations.Codewords : Prop :=
  (∀ s (k : Fin 8), let l := s.linkAt k; let i := max l.cwNext (l.cwFrom s.now); let a := s.advanceTo (l.cwBegin i).1
    let rx := a.time.sys + BitVec.ofNat 72 (l.cwBegin i).2
    ((l.state = .up ∨ l.state = .aligning) → exec (.codewordTx k) s = .next (a.modLink k fun l => l.transmit i rx a.now)) ∧
    (l.state = .up → l.resend = 0 → l.replay.length < 256 → l.txTiming = [] → l.txGuar = [] → l.txReq = [] → l.txRsp = [] →
      ∀ m, l.txCtl = [m] → ∃ t, exec (.codewordTx k) s = .next t ∧
        t.linkAt k = { l with
          txCtl := [], replay := l.replay ++ [.ctl m], nextSeq := l.nextSeq + 1, ackAt := if l.replay = [] then a.now else l.ackAt
          nak := false, cwNext := i + 1
          sent := some (l.cwLane i, Codeword.payload {
            num := BitVec.ofNat 12 i, seq := l.ackSeq + BitVec.ofNat 16 l.replay.length, items := [.ctl m], timing := none, ack := l.expect
            nak := l.nak, crReq := l.retReq, crRsp := l.retRsp, crGuar := l.retGuar }) }) ∧
    (l.state = .up → ∀ m r, l.txTiming = m :: r → ∃ t cw, exec (.codewordTx k) s = .next t ∧
      (t.linkAt k).sent = some (l.cwLane i, Codeword.payload cw) ∧ cw.timing = some (stampMsg m rx) ∧ (t.linkAt k).txTiming = r) ∧
    (l.state = .init → l.infoOk = false → l.txCtl = [.linkInfo (s.ownInfo k)] → ∃ t, exec (.codewordTx k) s = .next t ∧
      (t.linkAt k).infoSent = true ∧ (t.linkAt k).state = .init ∧ (t.linkAt k).txCtl = [] ∧ (t.linkAt k).replay = l.replay)) ∧
  (∀ s (k : Fin 8) rs (payload : BitVec 5140) frac, ((s.linkAt k).state = .up ∨ (s.linkAt k).state = .init) →
    exec (.codewordRx k .failed payload frac) s =
      .next (s.modLink k fun l => { l with nak := true, gap := true, gapAt := s.now, cFecUe := satInc l.cFecUe }) ∧
    (rs ≠ .failed → let a := if rs = .corrected then s.modLink k fun l => { l with cFecCe := satInc l.cFecCe } else s
      exec (.codewordRx k rs payload frac) s = .next (if crcMatches payload then a.acceptCw k (codewordOf payload) frac
        else a.modLink k fun l => { l with nak := true, gap := true, gapAt := s.now, cCrc := satInc l.cCrc }))) ∧
  (∀ (s : State) (k : Fin 8) cw frac, let l := s.linkAt k; let x := (s.acceptCw k cw frac).linkAt k
    l.state = .up → l.rxReq = [] → l.rxRsp = [] → l.rxGuar = [] → Codeword.nak cw = false →
    (∀ m, cw.ack = l.ackSeq → cw.seq = l.expect → cw.items = [.ctl m] → x.expect = l.expect + 1 ∧ x.rxCtl = l.rxCtl ++ [(m, s.now)] ∧
      x.gap = false ∧ x.credits.req = l.credits.req + (cw.crReq - l.seenReq).toNat ∧ x.seenReq = cw.crReq) ∧
    (cw.ack = l.ackSeq → cw.seq = l.expect + 1 → x.expect = l.expect ∧ x.rxCtl = l.rxCtl ∧ x.nak = true ∧ x.gap = true ∧ x.gapAt = s.now) ∧
    (cw.ack = l.ackSeq + 2 → 2 ≤ l.replay.length → cw.seq = l.expect → cw.items = [] →
      x.replay = l.replay.drop 2 ∧ x.resends = 0 ∧ x.ackSeq = cw.ack) ∧
    (∀ m, cw.items = [] → cw.timing = some m → x.rxTiming = l.rxTiming ++ [(m, s.time.sys + BitVec.ofNat 72 (BitVec.toNat (frac : Byte)), s.now)])) ∧
  (∀ (s : State) (k : Fin 8) cw frac i, (s.linkAt k).state = .init → Codeword.items cw = [.ctl (.linkInfo i)] →
    s.acceptCw k cw frac = s.modLink k fun l => { l with rxCtl := l.rxCtl ++ [(.linkInfo i, s.now)] }) ∧
  (∀ s (k : Fin 8), let l := s.linkAt k; l.state = .up →
    (l.replay ≠ [] → l.gap = false → let a := s.advanceTo (l.ackAt + l.replayTimeout)
      (l.resends < 8 → exec (.replayTimeout k) s = .next (a.modLink k fun l =>
        { l with resend := l.replay.length, resends := l.resends + 1, cReplay := satInc l.cReplay, ackAt := a.now })) ∧
      (8 ≤ l.resends → exec (.replayTimeout k) s = .next (a.linkLost k 3))) ∧
    (l.replay = [] → l.gap = true → let a := s.advanceTo (l.gapAt + l.replayTimeout)
      exec (.replayTimeout k) s = .next (a.modLink k fun l => { l with nak := true, gap := true, gapAt := a.now }))) ∧
  (∀ s (k : Fin 8) rs payload frac, ((s.linkAt k).state = .down ∨ (s.linkAt k).state = .training) → exec (.codewordTx k) s = .next s ∧
    exec (.codewordRx k rs payload frac) s = .next s ∧ exec (.replayTimeout k) s = .next s)

/-- A message is acted on 60 ns after its codeword came; one that has not come is not acted on. In LOCK with the election open,
the first valid ELECT heard is the best so far, one hop further. A delay request is answered in the next codeword with its
receive time; the first eight answers to this device's own requests are summed. A request is sent every interval. A marker of
another master is reported once; one on the upstream of an aligned follower that agrees with its own edge steers time by the
offset it shows, and one that disagrees makes the follower free-running with TBS_TICK_MISMATCH. A follower passes a hold
request toward the master, and the master accepts it. A notice of the master that is in time joins the schedule, once. Two
tick periods without an upstream marker fail the source when it is watched, and else change the upstream.
(R13, R22, R42, R47, R263, R264, R265, R266, R267, R269, R270) -/
def Obligations.SpanTime : Prop :=
  (∀ s (k : Fin 8), (∀ e, s.ctlAt k (.elect e) = none → exec (.elect k e) s = .next s) ∧
    (∀ o c i, s.ctlAt k (.holdReq o c i) = none → exec (.holdReq k o c i) s = .next s) ∧
    (∀ m id n, s.ctlAt k (.notice m id n) = none → exec (.notice k m id n) s = .next s) ∧
    (∀ mk rx, s.timingAt k (.marker mk) (some rx) = none → exec (.marker k mk rx) s = .next s) ∧
    (∀ id tx rx, s.timingAt k (.delayReq id tx) (some rx) = none → exec (.delayReq k id tx rx) s = .next s) ∧
    (∀ id t2 t3 t4, s.timingAt k (.delayRsp id t2 t3) (some t4) = none → exec (.delayRsp k id t2 t3 t4) s = .next s)) ∧
  (∀ s (k : Fin 8) e y, s.ctlAt k (.elect e) = some y → s.mode = .lock → s.tbs.elected = false → Elect.valid e = true → s.tbs.best = none →
    ∃ t, exec (.elect k e) s = .next t ∧ t.tbs.best = some (e.auto, e.cand, e.hops + 1, some k)) ∧
  (∀ s, s.mode = .lock → s.tbs.elected = false → ∃ t, exec .electSend s = .next t ∧ t.now = max s.now (s.tbs.electSentAt + 100000) ∧
    t.tbs.electSentAt = t.now) ∧
  (∀ s (k : Fin 8) id tx rx y, s.timingAt k (.delayReq id tx) (some rx) = some y → exec (.delayReq k id tx rx) s =
    .next ((s.timingTaken k (.delayReq id tx) (some rx) y).modLink k fun l => { l with txTiming := l.txTiming ++ [.delayRsp id rx 0] })) ∧
  (∀ s (k : Fin 8) id t1 t2 t3 t4 y, s.timingAt k (.delayRsp id t2 t3) (some t4) = some y → (s.linkAt k).reqAt = some t1 →
    (s.linkAt k).reqId = id → (s.linkAt k).measured < 7 → exec (.delayRsp k id t2 t3 t4) s =
      .next ((s.timingTaken k (.delayRsp id t2 t3) (some t4) y).modLink k fun l => { l with
        reqAt := none, measured := l.measured + 1
        sum := l.sum + ((BitVec.toNat t4 : Int) - BitVec.toNat t1 - ((BitVec.toNat t3 : Int) - BitVec.toNat t2)) / 2 })) ∧
  (∀ s (k : Fin 8), (s.linkAt k).state = .up → (s.linkAt k).farCaps.getLsbD 0 = true →
    let a := match (s.linkAt k).delayAt with | none => s | some x => s.advanceTo (x + 1000 * s.spn.interval.toNat)
    exec (.delayReqSend k) s = .next (a.modLink k fun l => { l with
      reqId := l.reqId + 1, reqAt := none, delayAt := some a.now, txTiming := l.txTiming ++ [.delayReq (l.reqId + 1) 0] })) ∧
  (∀ s (k : Fin 8) mk rx y, s.timingAt k (.marker mk) (some rx) = some y → (s.linkAt k).state = .up → s.tbs.elected = true →
    let a := s.timingTaken k (.marker mk) (some rx) y
    (Marker.master mk ≠ s.tbs.masterNum → ∃ t, exec (.marker k mk rx) s = .next t ∧ (t.linkAt k).foreign = true ∧ t.time = a.time ∧
      t.evt = (if (s.linkAt k).foreign then a.evt
        else a.evt.push (a.record none .spnForeignMaster (ofFields [(0, k.val), (8, mk.master.toNat)])))) ∧
    (∀ b, mk.master = s.tbs.masterNum → s.tbs.role = 2 → s.tbs.mismatched = false → s.spn.upstream = some k → 8 ≤ (s.linkAt k).measured →
      s.tbs.timeSet = true → s.tbs.realign = false → a.ownEdge (BitVec.ofNat 64 (mk.edge.toNat / 256)) = some b →
      (b.tick = mk.tick → b.skipped = mk.skipped → ∃ t, exec (.marker k mk rx) s = .next t ∧
        t.time = { a.time with steer := -a.offsetOf k mk rx } ∧ t.tbs.tick = s.tbs.tick ∧ t.spn.hops = mk.hops.toNat + 1 ∧ t.evt = a.evt ∧
        t.tbs.offset = BitVec.ofInt 32 (a.offsetOf k mk rx * 1000 / 256)) ∧
      ((b.tick ≠ mk.tick ∨ b.skipped ≠ mk.skipped) → ∃ t, exec (.marker k mk rx) s = .next t ∧ t.tbs.role = 3 ∧ t.tbs.aligned = false ∧
        t.tbs.mismatched = true ∧ t.time = { a.time with steer := 0 } ∧
        t.evt = a.evt.push (a.record none .tbsTickMismatch (BitVec.ofNat 32 mk.tick.toNat))))) ∧
  (∀ s (k : Fin 8) o c i y, s.ctlAt k (.holdReq o c i) = some y → let a := s.ctlTaken k (.holdReq o c i) y
    (∀ j : Fin 8, s.follower = true → s.routeLink s.tbs.masterNum = some j.val → (s.linkAt j).farCaps.getLsbD 0 = true →
      exec (.holdReq k o c i) s = .next (a.modLink j fun l => { l with txCtl := l.txCtl ++ [.holdReq o c i] })) ∧
    (s.follower = false → ∃ t, exec (.holdReq k o c i) s = .next t ∧
      t.tbs.holdQ = insertHold { time := a.now, dev := o, count := c, indef := i } s.tbs.holdQ)) ∧
  (∀ (s : State) (k : Fin 8) (m : Byte) (id : BitVec 16) kd y, s.ctlAt k (.notice m id kd) = some y → let a := s.ctlTaken k (.notice m id kd) y
    ((m, id) ∈ s.spn.seenNotices → exec (.notice k m id kd) s = .next a) ∧
    (∀ n p, kd = .period n p → m = s.tbs.masterNum → s.follower = true → (m, id) ∉ s.spn.seenNotices → a.noticeLate kd = false →
      (∀ j x, Sched.period j x ∈ s.tbs.sched → j ≠ n) → ∃ t, exec (.notice k m id kd) s = .next t ∧
        t.tbs.sched = s.tbs.sched ++ [.period n p] ∧ (m, id) ∈ t.spn.seenNotices ∧ t.evt = a.evt)) ∧
  (∀ s k, s.tbs.role = 2 → s.spn.upstream = some k →
    let a := s.advanceTo (((s.linkAt k).markerAt).getD s.tbs.lastMarker + 2 * s.tbs.period.toNat)
    exec .upstreamMarkerTimeout s = .next (if s.clk.watchSpan then a.srcFail 1 else a.switchUpstream k))

/-- A packet for another device leaves the network at the span port that its route named when it entered. Where there is no
such link, or it is not UP, or its far end has no network, a request is answered REMOTE_UNREACHABLE and a response is
dropped; so is one that would turn from one UP link to another, with SPN_ROUTE_VIOLATION. Else its flits join the queue of
its class, and a request is tracked until its response; with 1,024 tracked it stays on the network. A halt message seen
before does nothing; a new one is passed on once. (R255, R263, R272, R273, R274,
R276, R277, R342) -/
def Obligations.SpanPort : Prop :=
  (∀ s p via q, s.on = true → (Packet.hdr p).dstDev ≠ s.tbs.devNum → s.running (unitDomain q.dst) = true →
    s.atPort (fun x => samePacket x.pkt p && x.via == via) = some q → exec (.spanPortRequest p via) s =
      .next ((s.reach (unitDomain q.dst)).1.spanPort q)) ∧
  (∀ (s : State) (q : InFlight), let p := q.pkt; let a := s.takeNet q
    (p.hdr.opc ≠ opRsp → 1024 ≤ s.spn.tracked.length → s.spanPort q = s) ∧
    (p.hdr.opc = opRsp → (∀ k, q.link = some k → (s.linkAt k).state ≠ .up) → s.spanPort q = a) ∧
    (p.hdr.opc ≠ opRsp → s.spn.tracked.length < 1024 →
      (∀ k, q.link = some k → (s.linkAt k).state ≠ .up ∨ (s.linkAt k).farCaps.getLsbD 1 = false) →
      s.spanPort q = a.respond p .remoteUnreachable []) ∧
    (∀ k, (p.hdr.opc = opRsp ∨ s.spn.tracked.length < 1024) → q.link = some k → (s.linkAt k).state = .up → (s.linkAt k).farCaps.getLsbD 1 = true →
      (∀ v, q.via = some v → (s.linkAt v).cfg.getLsbD 7 = true → (s.linkAt k).cfg.getLsbD 7 = true →
        let b := a.raise .spnRouteViolation (ofFields [(0, v.val), (4, k.val), (8, p.hdr.dstDev.toNat)])
        s.spanPort q = if p.hdr.opc = opRsp then b else b.respond p .remoteUnreachable []) ∧
      ((∀ v, q.via = some v → (s.linkAt v).cfg.getLsbD 7 = false ∨ (s.linkAt k).cfg.getLsbD 7 = false) → (s.spanPort q).vnx = a.vnx ∧
        (s.spanPort q).spn.tracked = s.spn.tracked ++ (if p.hdr.opc = opRsp then []
          else [{ srcDev := p.hdr.srcDev, master := p.hdr.src, tag := p.hdr.tag, link := k.val, pkt := p }]) ∧
        (p.flitClass = .req → ((s.spanPort q).linkAt k).txReq =
          (s.linkAt k).txReq ++ packetFlits (packHdr p.hdr) .req p.hdr.epoch p.data p.dataFlits) ∧
        (p.flitClass = .rsp → ((s.spanPort q).linkAt k).txRsp =
          (s.linkAt k).txRsp ++ packetFlits (packHdr p.hdr) .rsp p.hdr.epoch p.data p.dataFlits) ∧
        (p.flitClass = .guar → ((s.spanPort q).linkAt k).txGuar =
          (s.linkAt k).txGuar ++ packetFlits (packHdr p.hdr) .guar p.hdr.epoch p.data p.dataFlits)))) ∧
  (∀ s (k : Fin 8) o i m h, s.ctlAt k (.halt o i m h) = none → exec (.spanHalt k o i m h) s = .next s) ∧
  (∀ s (k : Fin 8) o i m h y, s.ctlAt k (.halt o i m h) = some y → let a := s.ctlTaken k (.halt o i m h) y
    ((o, i) ∈ s.spn.seenHalts → exec (.spanHalt k o i m h) s = .next a) ∧
    ((o, i) ∉ s.spn.seenHalts → ∃ t, exec (.spanHalt k o i m h) s = .next t ∧ (o, i) ∈ t.spn.seenHalts ∧ (m = 0 → t.brk = a.brk) ∧
      ∀ j : Fin 8, j ≠ k → (s.linkAt j).state = .up → (s.linkAt j).farCaps.getLsbD 2 = true →
        (t.linkAt j).txCtl = (s.linkAt j).txCtl ++ [.halt o i m h]))

/-- A write on a TX window by the queue's user: a control word on an enabled queue with no frame open opens one; on a
disabled queue it is answered QUEUE_OFF; with a frame open, DECODE. Data is added to the open frame, which is complete
with its LEN bytes; without room it is answered BUSY. A wait takes the first bytes of the head packet; a drop takes
what is left of it; an empty queue answers BUSY, or QUEUE_OFF when disabled. Others are answered ACCESS_DENIED, other
forms DECODE. The stale timer reports once. A TAIL write starts the engine; clearing ENABLE discards an open frame.
(R284, R286, R287, R289, R290, R300, R302) -/
def Obligations.MacQueues : Prop :=
  (∀ s p, s.on = true → macForm (Packet.hdr p) = none → ∀ c ∈ [Instr.macTxControlWord p, .macTxData p, .rxWait p, .rxDrop p],
    exec c s = .next ((s.takeTarget p).respond p .decode [])) ∧
  (∀ s p, s.on = true → let m := (macWindow (Packet.hdr p)).1; let q := (macWindow p.hdr).2.1; let a := s.takeTarget p
    let w := leNat (p.data.take 8)
    (macForm p.hdr = some .control →
      (s.acting p.hdr ≠ (s.macQAt m q).user → ∃ t, exec (.macTxControlWord p) s = .next t ∧ t.mac = s.mac ∧ t.vnx = (a.respond p .accessDenied []).vnx) ∧
      (s.acting p.hdr = (s.macQAt m q).user →
        ((s.macQAt m q).openFrame.isSome = true → exec (.macTxControlWord p) s = .next (a.respond p .decode [])) ∧
        ((s.macQAt m q).openFrame = none → w < 2 ^ 40 → 14 ≤ w % 2 ^ 14 → w % 2 ^ 14 ≤ s.txMax m q →
          exec (.macTxControlWord p) s = .next (if (s.macQAt m q).enable then
            (a.modMacQ m q fun y => { y with full := false, openFrame := some (BitVec.ofNat 64 w, []) }).respond p .ok []
            else a.respond p .queueOff [])))) ∧
    (∀ c l, macForm p.hdr = some .data → s.acting p.hdr = (s.macQAt m q).user → (s.macQAt m q).openFrame = some (c, l) →
      l.length + p.data.length ≤ BitVec.toNat (c : BitVec 64) % 2 ^ 14 → (s.macQAt m q).enable = true → ∃ t, exec (.macTxData p) s = .next t ∧
        (if (s.macQAt m q).room < p.data.length then t.vnx = (a.respond p .busy []).vnx ∧ t.macQAt m q = { s.macQAt m q with full := true }
        else t.vnx = (a.respond p .ok []).vnx ∧
          (if l.length + p.data.length = c.toNat % 2 ^ 14 then (t.macQAt m q).openFrame = none ∧
            (t.macQAt m q).frames = (s.macQAt m q).frames ++ [{ ctl := c, data := l ++ p.data, desc := none }]
          else (t.macQAt m q).openFrame = some (c, l ++ p.data) ∧ (t.macQAt m q).frames = (s.macQAt m q).frames))) ∧
    (macForm p.hdr = some .wait → s.acting p.hdr = (s.macQAt m q).user →
      ((s.macQAt m q).packets = [] → exec (.rxWait p) s = .next (a.respond p (if (s.macQAt m q).enable then .busy else .queueOff) [])) ∧
      (∀ k r, (s.macQAt m q).packets = k :: r → ∃ t, exec (.rxWait p) s = .next t ∧ t.vnx = (a.respond p .ok (k.take p.hdr.bytes)).vnx ∧
        (t.macQAt m q).packets = (if k.length ≤ p.hdr.bytes then r else k.drop p.hdr.bytes :: r) ∧ (t.macQAt m q).stale = false)) ∧
    (macForm p.hdr = some .drop → s.acting p.hdr = (s.macQAt m q).user → ∃ t, exec (.rxDrop p) s = .next t ∧
      t.vnx = (a.respond p .ok []).vnx ∧ (t.macQAt m q).packets = (s.macQAt m q).packets.drop 1)) ∧
  (∀ s (m : Fin 24) (q : Fin 16) x, (s.macQAt m (16 + q.val)).staleFrom = some x → (s.macQAt m (16 + q.val)).staleLimit ≠ 0 →
    (s.macQAt m (16 + q.val)).stale = false → ∃ t, exec (.macRxqStale m q) s = .next t ∧
      t.macQAt m (16 + q.val) = { s.macQAt m (16 + q.val) with stale := true } ∧ t.evt.raised = s.evt.raised + 1 ∧
      t.now = max s.now (x + (s.macQAt m (16 + q.val)).staleLimit.toNat)) ∧
  (∀ s id (m : Fin 24) d (q : Fin 16) v,
    s.admitsWrite id (BitVec.ofNat 48 (0xB00418 + 0x8000 * m.val + 0x40 * queueIndex d q)) = true → exec (.macQTailWrite id m d q v) s =
      .next ((s.modMacQ m (queueIndex d q) fun y => { y with tail := BitVec.ofNat 12 (v : Word).toNat, engine := true }).answer id .ok 0)) ∧
  (∀ s id (m : Fin 24) (q : Fin 16) v, let a : Addr := BitVec.ofNat 48 (0xB00400 + 0x8000 * m.val + 0x40 * q.val)
    s.admitsWrite id a = true → (s.macQAt m q).enable = true → ∃ t, exec (.macEnableWrite id a v) s = .next t ∧ t.bus = ⟨id, .ok, 0⟩ ∧
      t.macQAt m q = { s.macQAt m q with
        cfg := (v : Word) &&& 0x3F03FF, openFrame := if v.getLsbD 0 then (s.macQAt m q).openFrame else none }) ∧
  (∀ s id (m : Fin 24) (p : Fin 4) v, let a : Addr := BitVec.ofNat 48 (0xB00100 + 0x8000 * m.val + 0x40 * p.val)
    s.admitsWrite id a = true → ∃ t, exec (.macEnableWrite id a v) s = .next t ∧ (t.portAt m p).ctrl = (v : Word) &&& 0xFFFF000F)

/-- A port that is up, enabled and not sending starts a waiting control frame, or else the frame of the queue it serves
next, with its egress time; one that may not send starts nothing. A data frame sent with a two-step stamp leaves it in
the stamp FIFO of 16, or MAC_TXTS_OVF when that is full. A received frame with a bad FCS or length, or cut short by RX_EN, is counted
and dropped; a good one is deposited with its status beat in the queue its address and priority select, if that is enabled
and has room, and counted as a drop otherwise. A PAUSE for the port holds its frames for its quanta; the timer's end frees them. A link change is
reported. A stamp read is popped. (R283, R285, R288, R293, R295, R296, R297, R298, R299) -/
def Obligations.MacFrames : Prop :=
  (∀ s (m : Fin 24) (p : Fin 4), (s.macPort m p = false ∨ (s.portAt m p).txEn = false ∨ (s.portAt m p).up = false ∨ (s.portAt m p).localFault = true) →
    exec (.macFrameTxStart m p) s = .next s) ∧
  (∀ s (m : Fin 24) (p : Fin 4), s.macPort m p = true → (s.portAt m p).txEn = true → (s.portAt m p).up = true →
    (s.portAt m p).localFault = false → (s.portAt m p).remoteFault = false → (s.portAt m p).sending = none → (s.portAt m p).sendingCtl = none →
    (∀ c r, (s.portAt m p).ctlOut = c :: r → exec (.macFrameTxStart m p) s = .next (s.modPort m p fun x =>
      { x with ctlOut := r, sendingCtl := some c, sendFrom := s.now, xoffAt := x.xoffAt.set 0 ((c.1.map (·.val)).getD 0) s.now })) ∧
    (∀ q f r, (s.portAt m p).ctlOut = [] → (s.macAt m).nextQueue p s.now = some q → (s.macQAt m q).frames = f :: r → f.tsReject = false →
      ∃ t, exec (.macFrameTxStart m p) s = .next t ∧ (t.macQAt m q).frames = r ∧
        (t.portAt m p).sending = some (q, { f with data := f.wire (s.egress m p) }) ∧ (t.portAt m p).startAt = s.egress m p ∧
        (t.portAt m p).sendFrom = s.now ∧ Frame [.mac] s t)) ∧
  (∀ s (m : Fin 24) (p : Fin 4) c, (s.portAt m p).sendingCtl = some c → exec (.macFrameTxEnd m p) s =
    .next (((s.advanceTo (s.sentBy m p 64)).modPort m p fun x => { x with sendingCtl := none }).macStat m p 2 1)) ∧
  (∀ s (m : Fin 24) (p : Fin 4) q f, (s.portAt m p).sendingCtl = none → (s.portAt m p).sending = some (q, f) → f.desc = none → f.ts2 = true →
    let a := s.advanceTo (s.sentBy m p f.data.length)
    ∃ t, exec (.macFrameTxEnd m p) s = .next t ∧ t.now = a.now ∧ (t.portAt m p).sending = none ∧
      (t.portAt m p).stat.getD 0 0 = (s.portAt m p).stat.getD 0 0 + 1 ∧
      (if (s.portAt m p).txts.length < 16 then (t.portAt m p).txts = (s.portAt m p).txts ++ [(BitVec.ofNat 8 f.tag, BitVec.ofNat 4 q,
          BitVec.ofNat 64 ((s.portAt m p).startAt.toNat / 256), BitVec.ofNat 8 (s.portAt m p).startAt.toNat)]
        else (t.portAt m p).txts = (s.portAt m p).txts ∧
          t.evt = a.evt.push (a.record none .macTxtsOvf (ofFields [(0, m.val), (5, p.val)])))) ∧
  (∀ s (m : Fin 24) (p : Fin 4) l ce ue, let a := s.fecSeen m p ce ue; let x := s.portAt m p
    let first := s.now - (s.macAt m).wireTime (List.length l) / 256
    ∀ c ∈ [Instr.macFrameRx m p l ce ue, .macControlFrameRx m p l ce ue],
      ((s.macPort m p = false ∨ x.up = false) → exec c s = .next a) ∧
      (s.macPort m p = true → x.up = true →
        (first < x.rxOffAt → exec c s = .next (a.macStat m p 8 1)) ∧
        (x.rxOffAt ≤ first → (x.rxEn = false ∨ first < x.rxOnAt) → exec c s = .next a) ∧
        (x.rxOffAt ≤ first → x.rxEn = true → x.rxOnAt ≤ first →
          (fcsOk l = false → exec c s = .next (a.macStat m p 6 1)) ∧
          (fcsOk l = true → (l.length < 64 ∨ x.maxFrame.toNat < l.length) → exec c s = .next (a.macStat m p 7 1)) ∧
          (fcsOk l = true → 64 ≤ l.length → l.length ≤ x.maxFrame.toNat → let f := l.take (l.length - 4)
            (isMacControl f = false → let i := (s.macAt m).steerIndex f; let e := (s.macAt m).steerAt i first; let q := field e 0 4
              ((e.getLsbD 4 = true ∨ (s.macQAt m (16 + q)).enable = false) → exec c s = .next (a.macStat m p 8 1)) ∧
              (e.getLsbD 4 = false → (s.macQAt m (16 + q)).enable = true →
                ((s.macQAt m (16 + q)).room < 64 + (pad64 f).length → ∃ t, exec c s = .next t ∧
                  t.macQAt m (16 + q) = { s.macQAt m (16 + q) with drops := satInc (s.macQAt m (16 + q)).drops }) ∧
                (64 + (pad64 f).length ≤ (s.macQAt m (16 + q)).room → ∃ t, exec c s = .next t ∧
                  (t.macQAt m (16 + q)).packets = (s.macQAt m (16 + q)).packets ++ [statusBeat f.length p ((s.macAt m).pcp f) (isTagged f) i
                    (addPs ((s.macAt m).ptpAt (s.time.sys - BitVec.ofNat 72 ((s.macAt m).wireTime l.length))) (-(field x.tsAdj 0 16 : Int))) ++ pad64 f]))) ∧
            (isMacControl f = true → x.fc = 1 → beNat ((f.drop 14).take 2) = 1 → beNat (f.take 6) = 0x0180C2000001 →
              ∃ t, exec c s = .next t ∧ (t.portAt m p).pause =
                let n := beNat ((f.drop 16).take 2)
                if n = 0 then none else some (s.now + (s.macAt m).quantaNs n)))))) ∧
  (∀ s (m : Fin 24) (p : Fin 4) x, (s.portAt m p).pause = some x → exec (.pauseTimerExpire m p none) s =
    .next ((s.advanceTo x).modPort m p fun y => { y with pause := none })) ∧
  (∀ s (m : Fin 24) (p : Fin 4) (c : Fin 8) x, (s.portAt m p).pfc.getD c none = some x → exec (.pauseTimerExpire m p (some c)) s =
    .next ((s.advanceTo x).modPort m p fun y => { y with pfc := y.pfc.set none c none })) ∧
  (∀ s (m : Fin 24) (p : Fin 4) (c : Fin 8), (s.portAt m p).xoff.getLsbD c = true → ∃ t, exec (.pauseRepeat m p (some c)) s = .next t ∧
    t.now = max s.now ((s.portAt m p).xoffAt.getD c 0 + (s.macAt m).quantaNs ((s.portAt m p).quanta.toNat / 2)) ∧
    (t.portAt m p).ctlOut = (s.portAt m p).ctlOut ++ [(if (s.portAt m p).fc = 2 then some c else none, (s.portAt m p).quanta)]) ∧
  (∀ s id (m : Fin 24) (p : Fin 4) tag q ns fr r, s.admitsRead id (BitVec.ofNat 48 (0xB00118 + 0x8000 * m.val + 0x40 * p.val)) = true →
    (s.portAt m p).txts = (tag, q, ns, fr) :: r → ∃ t, exec (.macTxtsPop id m p) s = .next t ∧
      t.bus = ⟨id, .ok, ofFields [(0, 1), (8, tag.toNat), (16, q.toNat), (24, BitVec.toNat fr)]⟩ ∧
      (t.portAt m p).txts = r ∧ (t.portAt m p).txtsNs = ns) ∧
  (∀ s (m : Fin 24) (p : Fin 4) up lf rf, s.macPort m p = true →
    let a := s.modPort m p fun x => { x with up := up, localFault := lf, remoteFault := rf }
    let det := ofFields [(0, m.val), (5, p.val)]
    exec (.macPortLinkChange m p up lf rf) s = .next (if up = (s.portAt m p).up then a else if up then a.raise .macLinkUp det
      else (a.macStat m p 13 1).raise .macLinkDown det))

/-- The engine of an enabled ring reads the descriptor at HEAD and works it. With HEAD at TAIL it does nothing; a descriptor
the engine does not own stops it; a failed access writes ERR back, clears ENABLE and raises MAC_DESC_ERR. A TX descriptor's
frame is read from its buffer and joins the queue with room. An RX descriptor takes the head packet: the frame, as far as
its buffer holds it, and then the descriptor with OWN 0 are stored, and HEAD moves on. (R291, R292, R302) -/
def Obligations.MacRings : Prop :=
  (∀ s (m : Fin 24) d (q : Fin 16) x b, let y := s.macQAt m (queueIndex d q)
    (s.on = false ∨ y.enable = false ∨ y.ring = false ∨ y.engine = false ∨ y.head = y.tail) → exec (.macDescProcess m d q x b) s = .next s) ∧
  (∀ (s : State) (m : Fin 24) d (q : Fin 16) x b, let i := queueIndex d q; let y := s.macQAt m i
    let da : Addr := BitVec.ofNat 48 (y.descAddr y.head.toNat); let r := s.engineRead 7 da 32 x
    let w0 := BitVec.ofNat 64 (leAt r.2 0 8); let w1 := BitVec.ofNat 64 (leAt r.2 8 8)
    let ba : Addr := BitVec.ofNat 48 (field w0 0 48); let c := exec (.macDescProcess m d q x b) s
    s.on = true → y.enable = true → y.ring = true → y.engine = true → y.head ≠ y.tail →
    (r.1 ≠ .ok → c = .next ((s.noteDenied 7 da false).ringHalt m i (decide (16 ≤ i)) w0 w1 r.1)) ∧
    (r.1 = .ok → w0.getLsbD 63 = false → c = .next (s.modMacQ m i fun y => { y with engine := false })) ∧
    (r.1 = .ok → w0.getLsbD 63 = true → d = .tx → let f := s.engineRead 7 ba (field w0 48 14) b
      (f.1 ≠ .ok → c = .next ((s.noteDenied 7 ba false).ringHalt m i false w0 w1 f.1)) ∧
      (f.1 = .ok → y.frames = [] → (∀ p < 4, (s.portAt m p).sending = none) → field w0 48 14 ≤ y.room →
        ∃ t, c = .next t ∧ (t.macQAt m i).head = y.head ∧
          (t.macQAt m i).frames.map (fun f => (f.data, f.desc)) = [(f.2.take (field w0 48 14), some (y.head.toNat, w0, w1))])) ∧
    (∀ k rest, r.1 = .ok → w0.getLsbD 63 = true → d = .rx → y.packets = k :: rest →
      let len := leAt k 0 2 % 2 ^ 14; let n := min len (field w0 48 14)
      (s.engineAnswer 7 ba n b.1 ≠ .ok → c = .next ((s.noteDenied 7 ba true).ringHalt m i true w0 w1 (s.engineAnswer 7 ba n b.1))) ∧
      (∀ o o', s.engineAnswer 7 ba n b.1 = .ok → s.engineAnswer 7 da 32 .ok = .ok → s.place ba = some (.burrow o) → s.place da = some (.burrow o') →
        64 + len ≤ k.length → let w := (if field w0 48 14 < len then 2 ^ 28 else 0) + n * 2 ^ 32 + leAt k 0 4 / 2 ^ 14 % 64 * 2 ^ 48
        ∃ t, c = .next t ∧ (t.macQAt m i).packets = rest ∧
          (t.macQAt m i).head = BitVec.ofNat 12 ((y.head.toNat + 1) % max 1 y.sizeUse.toNat) ∧
          t.ram = (s.ram.writeN (burrowAddr o) ((k.drop 64).take n)).writeN (burrowAddr o')
            (leBytes (w0.toNat % 2 ^ 63) 8 ++ leBytes w 8 ++ leBytes (leAt k 8 8) 8 ++ leBytes (leAt k 16 1) 8)))) ∧
  (∀ (s : State) (m : Fin 24) q rx w0 w1 e, let t := s.ringHalt m q rx w0 w1 e
    let b := s.writeBack m q (s.macQAt m q).head.toNat w0 (txWord1 w1 e.code) 0 0
    (t.macQAt m q).enable = false ∧ (t.macQAt m q).engine = false ∧ (t.macQAt m q).head = (s.macQAt m q).head ∧
      t.evt = b.evt.push (b.record none .macDescErr (ofFields [(0, m.val), (8, q % 16), (12, rx.toNat), (16, e.code)])))

/-- Nothing arrives over a link that is down. A poisoned write is reported and has no effect. In RUN, a write through BAR2
with nothing waiting becomes one WRITE of master 3 to the Burrow under a free tag, and a read one READ; a read of a
word of the endpoint-local block is completed once nothing posted waits, one that leads nowhere with Unsupported Request, as is one to
the network outside RUN and SLEEP. The network's answer completes the read with data, as poisoned, with Unsupported
Request or with Completer Abort, by its error; a late answer is discarded. At HST_IN_LIMIT a read is aborted and its
tag kept for the late answer. (R304, R305, R306, R307, R308, R315) -/
def Obligations.HostInbound : Prop :=
  (∀ s b o l p n tg, (s.on && s.hst.up) = false → exec (.hostMemWrite b o l p) s = .next s ∧ exec (.hostMemRead b o n tg) s = .next s) ∧
  (∀ s b o l, s.on = true → s.hst.up = true → exec (.hostMemWrite b o l true) s = .next ((s.aer aerPoisoned).raise .hstPoisonRx 0)) ∧
  (∀ s o (l : List Byte) tag ht, s.mode = .run → s.hst.up = true → s.hst.inWait = [] → s.hst.inWrites = [] → s.hostTag = some tag →
    o < 0x4000000 → 0 < l.length → o % 4096 + l.length ≤ 4096 → s.running .noc = true →
    let h (d : Option (List Byte)) : Packet :=
      let p := s.hostReq s.tbs.devNum (0x40000000 + o) l.length d
      { p with hdr := { p.hdr with tag := tag } }
    (∃ t, exec (.hostMemWrite .bar2 o (l.map some) false) s = .next t ∧ Sent s t [h (some l)] ∧
      t.hst.inWrites = [(tag, s.hostTarget (h none).hdr)] ∧ t.hst.inWait = [] ∧ t.tagBusy 3 tag = true) ∧
    (∃ t, exec (.hostMemRead .bar2 o l.length ht) s = .next t ∧ Sent s t [h none] ∧
      t.hst.inReads = s.hst.inReads ++ [{ tag := tag, hostTag := ht, len := l.length, time := s.now }] ∧ t.tagBusy 3 tag = true)) ∧
  (∀ s o w ht, s.on = true → s.hst.up = true → s.hst.inWait = [] → s.hst.inWrites = [] → o % 4 = 0 → o < 0x2000000 → s.elbRead o = some w →
    exec (.hostMemRead .bar0 (0x2000000 + o) 4 ht) s = .next (s.sendTlps [.cpl (.sc ht (leBytes w.toNat 4))])) ∧
  (∀ s o n ht, s.on = true → s.hst.up = true → 0x4000000 ≤ o → exec (.hostMemRead .bar2 o n ht) s = .next (s.sendUr ht) ∧
    exec (.hostMemWrite .bar2 o [some 0] false) s = .next s) ∧
  (∀ s o n ht, s.on = true → s.hst.up = true → s.mode ≠ .run → s.mode ≠ .sleep → s.mode ≠ .deep → o < 0x4000000 →
    exec (.hostMemRead .bar2 o n ht) s = .next (s.sendUr ht)) ∧
  (∀ s r e d, s.on = true → s.hst.inWait = [] → s.hst.inReads = [r] → s.hst.answers = [(HostRead.tag r, e, d)] →
    s.hst.lateTags.getLsbD r.tag.toNat = false →
    ∃ t, exec (.hostInboundAnswer r.tag) s = .next t ∧ t.hst.inReads = [] ∧ t.hst.answers = [] ∧
      t.hst.tlps = s.hst.tlps ++ [.cpl (match e with
        | .ok => .sc r.hostTag d | .poison => .scPoisoned r.hostTag r.len | .decode => .ur r.hostTag | .accessDenied => .ur r.hostTag
        | _ => .ca r.hostTag)]) ∧
  (∀ s tag e d, s.on = true → s.hst.inWait = [] → s.hst.answers = [(tag, e, d)] → s.hst.lateTags.getLsbD (BitVec.toNat (tag : BitVec 6)) = true →
    exec (.hostInboundAnswer tag) s = .next (s.modHst fun h => { h with answers := [], lateTags := setBit h.lateTags tag.toNat false })) ∧
  (∀ s tag, (∀ x ∈ s.hst.answers, x.1 ≠ tag) → exec (.hostInboundAnswer tag) s = .next s) ∧
  (∀ s r, s.hst.inWait = [] → s.hst.inReads = [r] → ∃ t, exec (.hostInLimitExpire (HostRead.tag r)) s = .next t ∧
    t.now = max s.now (r.time + 1000 * s.hst.inLimit.toNat) ∧ t.hst.inReads = [] ∧ t.hst.lateTags.getLsbD r.tag.toNat = true ∧
    t.hst.tlps = s.hst.tlps ++ [.cpl (.ca r.hostTag)] ∧ t.evt.raised = s.evt.raised + 1)

/-- A request that is neither READ nor WRITE is answered DECODE; with bus mastering off HOST_ERROR; with no tag left it
waits. On an up link a READ is sent under a tag that is then outstanding, and a WRITE is sent in TLPs of at most 512
bytes and answered OK. A completion with all the data answers the READ, with POISON if any part was poisoned, and
Unsupported Request or Completer Abort answers HOST_ERROR; one for no outstanding tag is counted and reported. At the
completion timeout, at most a tenth late, the READ is answered HOST_TIMEOUT, and 256 µs later its tag is free. The host's
configuration requests are completed, reads with the word they name, and writes set their controls.
(R303, R309, R310, R311, R312, R313, R318, R319) -/
def Obligations.HostOutbound : Prop :=
  (∀ s p, s.on = true → (Packet.hdr p).isRead = false → p.hdr.isWrite = false → exec (.hostOutboundRequest p) s =
    .next ((s.takeTarget p).respond p .decode [])) ∧
  (∀ s p, s.on = true → ((Packet.hdr p).isRead = true ∨ p.hdr.isWrite = true) → let a := s.takeTarget p
    (s.hst.bme = false → exec (.hostOutboundRequest p) s = .next (a.respond p .hostError [])) ∧
    (s.hst.bme = true → 512 ≤ s.hst.outs.length → exec (.hostOutboundRequest p) s = .next s) ∧
    (s.hst.bme = true → s.hst.up = true → s.hst.outs = [] →
      (p.hdr.isRead = true → ∃ t, exec (.hostOutboundRequest p) s = .next t ∧ ∃ tag,
        t.hst.tlps = s.hst.tlps ++ [.memRead tag (s.hostAddr p.hdr.addr.toNat) p.hdr.bytes] ∧ t.vnx = a.vnx ∧
        t.hst.outs = [{ tag := tag, pkt := p, data := [], poisoned := false, sent := true, time := s.now, expired := none }]) ∧
      (p.hdr.isWrite = true → ∃ t, exec (.hostOutboundRequest p) s = .next t ∧ t.hst.outs = [] ∧
        t.hst.tlps = s.hst.tlps ++ writeTlps (s.hostAddr p.hdr.addr.toNat) p.data ∧ t.vnx = (a.respond p .ok []).vnx))) ∧
  (∀ s tag st d, s.on = true → s.hst.up = true → (∀ r ∈ s.hst.outs, HostOut.tag r ≠ tag) → ∃ t, exec (.hostCompletion tag st d) s = .next t ∧
    t.hst.unexp = satInc s.hst.unexp ∧ t.vnx = s.vnx ∧ t.evt = s.evt.push (s.record none .hstUnexpCpl (BitVec.ofNat 32 tag.toNat))) ∧
  (∀ s r d, s.on = true → s.hst.up = true → s.hst.outs = [r] → HostOut.sent r = true → r.expired = none → r.data = [] → r.poisoned = false →
    (d.length = r.pkt.hdr.bytes → exec (.hostCompletion r.tag .sc d) s =
      .next ((s.modHst fun h => { h with outs := [] }).respond r.pkt .ok d)) ∧
    (d.length = r.pkt.hdr.bytes → ∃ t, exec (.hostCompletion r.tag .scPoisoned d) s = .next t ∧ t.vnx = (s.respond r.pkt .poison []).vnx) ∧
    exec (.hostCompletion r.tag .urOrCa d) s = .next ((s.modHst fun h => { h with outs := [] }).respond r.pkt .hostError []) ∧
    (∃ t, exec (.completionTimeout r.tag) s = .next t ∧ max s.now (r.time + 1000 * s.hst.cplUs) ≤ t.now ∧
      t.now ≤ max s.now (r.time + 1100 * s.hst.cplUs) ∧ t.hst.outs = [{ r with expired := some t.now }] ∧ Sent s t [r.pkt.rsp .hostTimeout []] ∧ t.hst.ctoCount = satInc s.hst.ctoCount)) ∧
  (∀ s r x, s.hst.outs = [r] → HostOut.expired r = some x → exec (.hostTagFree r.tag) s =
    .next ((s.advanceTo (x + 256000)).modHst fun h => { h with outs := [] }) ∧ exec (.completionTimeout r.tag) s = .next s) ∧
  (∀ s ht, s.on = true → s.hst.up = true → let a (l : List Byte) : State := s.sendTlps [.cpl (.sc ht l)]
    (∀ o, exec (.hostConfigRequest (.read o) ht) s = .next (a (leBytes (s.cfgWord (o.toNat / 4 * 4)).toNat 4))) ∧
    (∀ hi, exec (.hostConfigRequest (.readSerial hi) ht) s = .next (a (leBytes (if hi then s.serial / 2 ^ 32 else s.serial) 4))) ∧
    exec (.hostConfigRequest .none ht) s = .next (a []) ∧
    (∀ i v, exec (.hostConfigRequest (.bar i v) ht) s = .next ((a []).modHst fun h => { h with bars := h.bars.set 0 i.val (v &&& barMask i.val) })) ∧
    exec (.hostConfigRequest (.bme true) ht) s = .next ((a []).modHst fun h => { h with bme := true }) ∧
    (∀ v off, exec (.hostConfigRequest (.cplTimeout v off) ht) s = .next ((a []).modHst fun h => { h with cplTo := v, cplToOff := off })) ∧
    (∀ e m, exec (.hostConfigRequest (.msix e m) ht) s = .next ((a []).modHst fun h => { h with msixEn := e, funcMask := m })) ∧
    (∀ d, exec (.hostConfigRequest (.power d) ht) s = .next ((a []).modHst fun h => { h with d3hot := d })) ∧
    (∀ m, exec (.hostConfigRequest (.aerClear m) ht) s = .next ((a []).modHst fun h => { h with aerUnc := h.aerUnc &&& ~~~m })) ∧
    (∀ r, s.hst.outs = [r] → HostOut.sent r = false → exec (.hostConfigRequest (.bme false) ht) s =
      .next (((a []).modHst fun h => { h with bme := false, outs := [] }).respond r.pkt .hostError [])))

/-- A hot reset takes the link down, counted and reported. With the pin high and the PCIe reference good, the link comes
up at a rate and width the part allows, with HST_LINK_UP. A wake write does nothing in RUN and wakes a device in
SLEEP. HST_MSIX_SEND makes a vector pending; a pending vector that is enabled and unmasked is sent once. A link error
sets its AER bit. (R303, R314, R315, R316, R318, R319) -/
def Obligations.HostLink : Prop :=
  (∀ s, s.on = true → s.hst.up = true → exec .hotReset s =
    .next ((s.modHst fun h => { h with up := false, lstate := 0, downCount := satInc h.downCount }).raise .hstLinkDown 0)) ∧
  (∀ s r w f, s.on = true → s.pwr.pinHigh = true → s.clk.good.getLsbD 2 = true → s.hst.up = false → BitVec.toNat r ≤ 4 →
    [1, 2, 4, 8].contains (BitVec.toNat w) = true → s.hst.outs = [] → s.hst.ltrSent = true → exec (.hostLinkUp r w f) s =
      .next ((s.modHst fun h => { h with up := true, rate := r, width := w, flit := f, lstate := 0, ltrSent := true }).raise .hstLinkUp
        (ofFields [(0, r.toNat), (3, w.toNat)]))) ∧
  (∀ s r w f, (s.hst.up = true ∨ s.pwr.pinHigh = false ∨ s.clk.good.getLsbD 2 = false ∨ 5 < BitVec.toNat r) → exec (.hostLinkUp r w f) s = .next s) ∧
  (∀ s v, s.mode = .run → exec (.elbWake v) s = .next s) ∧
  (∀ s v, s.mode = .sleep → s.hst.up = true → BitVec.getLsbD (v : Word) 0 = true → exec (.elbWake v) s =
    .next ((s.modHst fun h => { h with lstate := 0 }).fireWake 1)) ∧
  (∀ s m v, s.admitsWrite m 0xC00014 = true → exec (.hstMsixSend m v) s =
    .next ((s.modHst fun h => { h with pba := h.pba.set false (field (v : Word) 0 11) true }).answer m .ok 0)) ∧
  (∀ s (v : Fin 2048), s.on = true → s.hst.msixGo v = true → ∃ t, exec (.msixMessage v) s = .next t ∧ t.hst.tlps = s.hst.tlps ++ [s.hst.msixMessage v] ∧
    t.hst.pba.getD v false = false ∧ t.hst.msixGo v = false) ∧
  (∀ s (v : Fin 2048), s.hst.msixGo v = false → exec (.msixMessage v) s = .next s) ∧
  (∀ s, s.on = true → s.hst.up = true →
    exec (.hostLinkError .malformed) s = .next ((s.aer 18).raise .hstLinkErr 18) ∧
    exec (.hostLinkError .badTlp) s = .next (s.modHst fun h => { h with aerCor := setBit h.aerCor 6 true }))

/-- A doorbell on an idle or done mailbox makes a request of its number and interrupts Brock-A; on a request or a busy
mailbox it sets the overrun and changes nothing else. A request word is written unless a request is waiting or served.
TAKE and DONE move REQ to BUSY and BUSY to DONE, with the request's number. While Brock-A runs and the mailbox is
busy, the monitor answers the request's command with its number, a status and a payload: PING its own payload, READ
and WRITE the bytes and the outcome of their access, in this device's memories within the command, INFO, LOG and LEDGER their records, and HALT_B and RESUME_B after
acting on Brock-B. An unknown command is answered with status 1, a wrong length with 2. (R320, R321, R344) -/
def Obligations.Mailbox : Prop :=
  (∀ s v, s.on = true → s.hst.up = true → ((s.hst.mb = .idle ∨ s.hst.mb = .done) → exec (.mbDoorbell v) s =
      .next ((s.modHst fun h => { h with mb := .req, seq := BitVec.ofNat 16 (v : Word).toNat, overrun := false }).modPair 0 fun x =>
        { x with irqMailbox := true, wfi := false })) ∧
    ((s.hst.mb = .req ∨ s.hst.mb = .busy) → exec (.mbDoorbell v) s = .next (s.modHst fun h => { h with overrun := true }) ∧
      ∀ o, exec (.mbReqWrite o v) s = .next (s.modHst fun h => { h with overrun := true }))) ∧
  (∀ s o v, s.on = true → s.hst.up = true → s.hst.mb = .idle → ∃ t, exec (.mbReqWrite o v) s = .next t ∧
    tabWord t.hst.mbReq (o.toNat / 4 * 4) = v ∧ ∀ i, i < o.toNat / 4 * 4 ∨ o.toNat / 4 * 4 + 4 ≤ i → t.hst.mbReq.getD i 0 = s.hst.mbReq.getD i 0) ∧
  (∀ s m v, s.admitsWrite m 0xC0A000 = true → (field (v : Word) 0 2 = 1 → s.hst.mb = .req → exec (.mbTake m v) s =
      .next (((s.modHst fun h => { h with mb := .busy }).modPair 0 fun x => { x with irqMailbox := false }).answer m .ok 0)) ∧
    (field v 0 2 = 2 → s.hst.mb = .busy → ∃ t, exec (.mbDone m v) s = .next t ∧ t.hst.mb = .done ∧ t.hst.doneSeq = s.hst.seq ∧
      t.hst.pba.getD s.hst.mbVector.toNat false = true)) ∧
  (∀ s, s.on = true → s.hst.mb = .busy → s.brk.a.runs = true → let cmd := s.hst.reqNat 2 2; let n := s.hst.reqNat 12 4; let first := s.hst.reqNat 8 4
    let dev : Byte := BitVec.ofNat 8 (s.hst.reqNat 14 1); let addr : Addr := BitVec.ofNat 48 (s.hst.reqNat 8 6)
    (cmd = 1 → s.hst.reqLen ≤ 4088 → exec .ping s = .next (s.mbReply 0 s.hst.payload)) ∧
    (cmd = 1 → 4088 < s.hst.reqLen → exec .ping s = .next (s.mbReply 2 [])) ∧
    (cmd = 1 → exec .info s = .next s) ∧
    (cmd = 5 → exec .ping s = .next (s.mbReply 1 [])) ∧
    (cmd = 2 → s.hst.reqLen = 0 → ∃ l, exec .info s = .next (s.mbReply 0 (leBytes Config.firmwareVersion.toNat 4 ++ l)) ∧ l.length = 24) ∧
    (∀ e d, cmd = 0x10 → s.hst.reqLen = 12 → s.hst.reqNat 16 4 ≤ 4080 → let r := s.monitorRead dev addr (s.hst.reqNat 16 4) (e, d)
      exec (.read e d) s = .next (r.1.mbReply (if r.2.1 = .ok then 0 else 3 + 256 * r.2.1.code) (if r.2.1 = .ok then r.2.2 else []))) ∧
    (∀ e, cmd = 0x11 → 8 ≤ s.hst.reqLen → s.hst.reqLen ≤ 4088 → let r := s.monitorWrite dev addr (s.hst.payload.drop 8) e
      exec (.write e) s = .next (r.1.mbReply (if r.2 = .ok then 0 else 3 + 256 * r.2.code) [])) ∧
    (cmd = 0x20 → s.hst.reqLen = 8 → n ≤ 255 → exec .log s = .next (s.mbReply 0 ((List.range n).flatMap fun i =>
      (List.range 4).flatMap fun j => leBytes (s.evt.logWord ((first + i) % 1024) j).toNat 4))) ∧
    (cmd = 0x21 → s.hst.reqLen = 8 → n ≤ 127 → exec .ledger s = .next (s.mbReply 0 ((List.range n).flatMap fun i =>
      (List.range 8).flatMap fun j => leBytes (s.evt.ledgerWord (32 * ((first + i) % 512) + 4 * j)).toNat 4))) ∧
    (cmd = 0x30 → s.hst.reqLen = 0 → s.brk.b.runs = true → s.brk.b.wait = none → s.brk.b.outMask = 0 → ∃ a : State, exec .haltB s = .next (a.mbReply 0 []) ∧
      a.brk.b.halted = true ∧ a.brk.b.cause = 2 ∧ a.brk.a = s.brk.a) ∧
    (cmd = 0x31 → s.hst.reqLen = 0 → s.brk.b.halted = true → ∃ a : State, exec .resumeB s = .next (a.mbReply 0 []) ∧
      a.brk.b.halted = false ∧ a.brk.a = s.brk.a)) ∧
  (∀ (a : State) st l, let t := a.mbReply st l
    (List.range (8 + l.length)).map (fun i => t.hst.mbRsp.getD i 0) = leBytes (a.hst.reqNat 0 2 + st * 2 ^ 16) 4 ++ leBytes l.length 4 ++ l ∧
      Frame [.hst] a t) ∧
  (∀ (s : State) dev a n e d, (dev ≠ s.tbs.devNum → s.monitorRead dev a n (e, d) = (s, e, d.take n)) ∧
    (∀ o, dev = s.tbs.devNum → s.place a = some (.burrow o) → e = .ok → (∀ t, s.target a (.burrow o) = some t → s.denied 0 t true false = false) → s.serves (.burrow o) n = .ok →
      s.monitorRead dev a n (e, d) = (s, .ok, s.ram.readN (burrowAddr o) n))) ∧
  (∀ (s : State) dev a l e, (dev ≠ s.tbs.devNum → s.monitorWrite dev a l e = (s, e)) ∧
    (∀ o, dev = s.tbs.devNum → s.place a = some (.burrow o) → s.engineAnswer 0 a l.length e = .ok →
      s.monitorWrite dev a l e = (s.modRam fun r => r.writeN (burrowAddr o) l, .ok))) ∧
  (∀ s, s.hst.mb ≠ .busy → ∀ c ∈ [Instr.ping, .info, .read .ok [], .write .ok, .log, .ledger, .haltB, .resumeB], exec c s = .next s)

/-- A store of a running pair to its TCM puts its bytes there and changes no other byte, and a load gives its register the
value. A mismatch and a delay parity error are counted and restart the pair at its reset vector; a TCM parity error
restarts Brock-A and holds Brock-B in reset. A completed restart runs the pair, or leaves it halted if it was;
Brock-A's TCM is clear. A self-test that finds nothing leaves the pair unchecked, reported once. B_RUN holds Brock-B
in reset, or in RUN releases it. An EBREAK halts with cause 1, or is taken as exception 3. The timer interrupt is
pending when system time reaches MTIMECMP. A doorbell rings at the other pair. (R221, R325, R326, R327, R329, R331,
R332, R333, R338) -/
def Obligations.Pairs : Prop :=
  (∀ s (p : Fin 2) (o : Fin 0x40000) rd v, s.on = true → (s.pairAt p).runs = true → (s.pairAt p).wait = none → o.val % 4 = 0 →
    let a : Word := BitVec.ofNat 32 (0x10000000 + o.val)
    (∃ t, exec (.coreNetworkAccess p a true 4 rd v) s = .next t ∧ t.ram = s.ram.writeN (tcmBase p + o.val) (leBytes v.toNat 4) ∧
      (∀ x, x < tcmBase p + o.val ∨ tcmBase p + o.val + 4 ≤ x → t.ram.read x = s.ram.read x) ∧ Frame [.ram] s t) ∧
    (rd ≠ 0 → ∃ t, exec (.coreNetworkAccess p a false 4 rd v) s = .next t ∧ Frame [.brk] s t ∧
      (t.pairAt p).reg rd.toNat = BitVec.ofNat 32 (leNat (s.ram.readN (tcmBase p + o.val) 4)))) ∧
  (∀ s (p : Fin 2), s.on = true → (s.pairAt p).inReset = false → (s.pairAt p).restarting = false → (s.pairAt p).restarts = [] →
    (∃ t, exec (.coreMismatch p) s = .next t ∧ (t.pairAt p).restarting = true ∧ (t.pairAt p).halted = false ∧ (t.pairAt p).pc = resetVec p ∧
      t.pairAt (1 - p.val) = s.pairAt (1 - p.val) ∧ t.evt = s.evt.push (s.record none .brkMismatch (BitVec.ofNat 32 p.val)) ∧
      (if p = 0 then t.brk.mismatchA = satInc s.brk.mismatchA else t.brk.mismatchB = satInc s.brk.mismatchB)) ∧
    (∃ t, exec (.delayParityError p) s = .next t ∧ (t.pairAt p).restarting = true ∧
      t.evt = s.evt.push (s.record none .brkDelayParity (BitVec.ofNat 32 p.val)) ∧
      (if p = 0 then t.brk.delayA = satInc s.brk.delayA else t.brk.delayB = satInc s.brk.delayB)) ∧
    (∀ o, ∃ t, exec (.tcmParityError p o) s = .next t ∧
      t.evt = s.evt.push (s.record none .brkTcmParity (ofFields [(0, p.val), (1, BitVec.toNat (o : BitVec 20))])) ∧
      (if p = 0 then (t.pairAt 0).restarting = true else (t.pairAt 1).inReset = true ∧ t.brk.bRun = false)) ∧
    (s.now ≤ s.selfTestAt p ∧ s.selfTestAt p < max (s.now + 1000000) ((s.pairAt p).testAt + 1000001) ∧ 1000000 ∣ s.selfTestAt p - (s.pairAt p).testAt) ∧
    (∀ d, ∃ t, exec (.comparatorSelfTest p d) s = .next t ∧ t.now = s.selfTestAt p ∧
      (t.pairAt p).unchecked = ((s.pairAt p).unchecked || !d) ∧ (t.pairAt p).testAt = t.now ∧
      t.evt.raised = s.evt.raised + if d = false ∧ (s.pairAt p).unchecked = false then 1 else 0)) ∧
  (∀ s (p : Fin 2), s.on = true → (s.pairAt p).restarting = true → (s.pairAt p).haltWait = none → ∃ t, exec (.pairRestartDone p) s = .next t ∧
    (t.pairAt p).restarting = false ∧ (t.pairAt p).halted = (s.pairAt p).haltAfter ∧ t.evt = s.evt ∧
    (p = 0 → ∀ x < 0x40000, t.ram.read (0x50000000 + x) = 0) ∧ (p = 1 → t.ram = s.ram)) ∧
  (∀ s (p : Fin 2), (s.pairAt p).inReset = true → exec (.coreMismatch p) s = .next s ∧ exec (.delayParityError p) s = .next s) ∧
  (∀ s v, s.admitsWrite 0 0xD00004 = true → s.mode = .run → ∃ t, exec (.brkCtrlWrite 0 v) s = .next t ∧ t.brk.bRun = BitVec.getLsbD (v : Word) 0 ∧
    (v.getLsbD 0 = false → t.brk.b.inReset = true ∧ t.brk.b.pc = 0x10000000) ∧
    (v.getLsbD 0 = true → s.brk.bRun = false → t.brk.b.inReset = false) ∧ t.brk.a = s.brk.a) ∧
  (∀ s (p : Fin 2) pc, s.on = true → (s.pairAt p).runs = true → (s.pairAt p).wait = none → (s.pairAt p).outMask = 0 →
    ∃ t, exec (.ebreak p pc) s = .next t ∧ (if (s.pairAt p).ebreakHalt then (t.pairAt p).halted = true ∧ (t.pairAt p).cause = 1 ∧
        (t.pairAt p).pc = pc &&& 0xFFFFFFFE ∧ t.evt = s.evt.push (s.record none .brkHalt (ofFields [(0, p.val), (1, 1)]))
      else (t.pairAt p).mepc = pc &&& 0xFFFFFFFE ∧ (t.pairAt p).mcause = 3 ∧ (t.pairAt p).mie = false ∧ (t.pairAt p).halted = false)) ∧
  (∀ s (p : Fin 2), s.on = true → s.time.sysOn = true → (s.pairAt p).inReset = false → ∃ t, exec (.mtimerInterrupt p) s = .next t ∧
    (t.pairAt p).mtip = true ∧ t.now = s.now + ((s.pairAt p).mtimecmp.toNat - s.sysNs)) ∧
  (∀ s (p : Fin 2), s.on = true → (s.pairAt p).runs = true → exec (.coreDoorbell p 1) s =
    .next (s.modPair (1 - p.val) fun x => { x with irqDoorbell := true, wfi := false }) ∧ exec (.coreDoorbell p 0) s = .next s)

/-- A low of 0.6 to 1.6 µs is a 0 and of 2.4 to 3.6 µs a 1 of the frame in progress when its falling edge is in its cell, 12 to
18 µs starts a frame, one of 0.2 to 20 µs between these abandons it, counted as a framing error, and a longer one abandons it
and may count as a glitch; so do 10 µs of silence. The last bit of a frame of even parity delivers its command when its cell
ends. A reply that is ready starts 9 to 11 µs after the last cell, and a falling edge stops it. Each command runs only when its
own frame has been delivered, and replies: IDCODE, STATUS, RDDATA, RDPC, RESULT and GLITCH with what they name, WRDATA, WRPC,
GROUP, XCFG and XHALT after setting or firing what they name, HALT and RESUME after acting on their pairs; STEP and FEED
execute an instruction on a halted pair; on one that runs they, RDPC and WRPC are refused. (R334, R335, R336, R337,
R338, R339, R340, R341, R342) -/
def Obligations.DebugWire : Prop :=
  (∀ s l gap ns, s.on = true → s.brk.replying = false → s.brk.bits = some l → let fall := s.now + gap; let a := s.advanceTo (fall + ns)
    let err := a.modBrk fun b => { b with bits := none, frameErr := satInc b.frameErr }
    let d := s.brk.cellAt + if l = [] then 30000 else 10000
    exec .dwFrameTimeout s = .next ((s.advanceTo d).modBrk fun b => { b with bits := none, frameErr := satInc b.frameErr }) ∧
    (fall ≤ d →
      (ns < 200 → exec (.dwLowEnd gap ns) s = .next a) ∧
      ((600 ≤ ns ∧ ns ≤ 1600 ∨ 2400 ≤ ns ∧ ns ≤ 3600) →
        (dwCellOk l.isEmpty (fall - s.brk.cellAt) = false → exec (.dwLowEnd gap ns) s = .next err) ∧
        (dwCellOk l.isEmpty (fall - s.brk.cellAt) = true → l.length < 7 → exec (.dwLowEnd gap ns) s =
          .next (a.modBrk fun b => { b with bits := some (l ++ [decide (2400 ≤ ns)]), cellAt := fall })) ∧
        (dwCellOk l.isEmpty (fall - s.brk.cellAt) = true → l = msbBits 1 8 → 2400 ≤ ns → ∃ t, exec (.dwLowEnd gap ns) s = .next t ∧
          t.brk.frame = some { cmd := 1, payload := [] } ∧ t.brk.bits = none ∧ t.brk.frameCount = satInc s.brk.frameCount ∧ t.now = fall + 5000)) ∧
      ((200 ≤ ns ∧ ns < 600 ∨ 1600 < ns ∧ ns < 2400 ∨ 3600 < ns ∧ ns < 12000 ∨ 18000 < ns ∧ ns < 20000) →
        exec (.dwLowEnd gap ns) s = .next err) ∧
      (12000 ≤ ns → ns ≤ 18000 → exec (.dwLowEnd gap ns) s =
        .next (a.modBrk fun b => { b with bits := some [], frame := none, reply := none, replyFeed := none, cellAt := fall })) ∧
      (20000 ≤ ns → exec (.dwLowEnd gap ns) s =
        .next (a.modBrk fun b => { b with bits := none, glitch := if ns ≤ 100000 then satInc b.glitch else b.glitch })))) ∧
  (∀ s gap ns, s.on = true → s.brk.replying = false → s.brk.bits = none → 12000 ≤ ns → ns ≤ 18000 → exec (.dwLowEnd gap ns) s =
    .next ((s.advanceTo (s.now + gap + ns)).modBrk fun b =>
      { b with bits := some [], frame := none, reply := none, replyFeed := none, cellAt := s.now + gap })) ∧
  (∀ s r, s.brk.reply = some r → s.brk.replying = false → ∃ t, exec .dwReplyStart s = .next t ∧ t.brk.replying = true ∧
    t.brk.reply = some r ∧ t.brk.replyFeed = none ∧ t.brk.replyAt = t.now ∧
    max s.now (s.brk.cellAt + 14000) ≤ t.now ∧ t.now ≤ max s.now (s.brk.cellAt + 16000)) ∧
  (∀ s r gap ns, s.on = true → s.brk.replying = true → s.brk.reply = some r → s.brk.bits = none → ns < 200 →
    (s.now + gap < s.brk.replyAt + 5000 * r.length → exec (.dwReplyInterrupted gap ns) s =
      .next ((s.advanceTo (s.now + gap + ns)).modBrk fun b =>
        { b with replying := false, reply := none, sent := r.take ((s.now + gap - s.brk.replyAt) / 5000) })) ∧
    (s.brk.replyAt + 5000 * r.length ≤ s.now + gap → exec (.dwReplyInterrupted gap ns) s = .next s)) ∧
  (∀ s, s.brk.frame = none → ∀ c ∈ [Instr.idcode, .status, .halt 3, .resume 3, .step 0, .feed 0 0, .result 0, .rddata 0, .wrdata 0 0, .rdpc 0,
    .wrpc 0 0, .group 0 0 0, .xcfg true true, .xhalt 0, .glitch], exec c s = .next s) ∧
  (∀ s c l, s.brk.frame = some { cmd := BitVec.ofNat 8 c, payload := l } → let a := s.modBrk fun b => { b with frame := none }
    (c = 1 → l = [] → exec .idcode s = .next (a.prepare 0
      (msbBits (0x96 + s.fuse 72 4 * 2 ^ 16 + s.fuse 69 2 * 2 ^ 20 + s.fuse 71 1 * 2 ^ 22) 32))) ∧
    (c = 2 → l = [] → ∃ t n, exec .status s = .next t ∧ t.brk.reply = some (dwReply 0 (msbBits n 16)) ∧ n % 16 = s.mode.code ∧ n.testBit 4 = s.brk.a.halted) ∧
    (c = 0x3F → l = [] → exec .glitch s = .next (a.prepare 0 (msbBits (s.brk.glitch.toNat % 2 ^ 16) 16))) ∧
    (∀ g h, c = 0x31 → l = [g, h] → exec (.xcfg g h) s = .next ((a.modBrk fun b => { b with xGlobal := g, xHold := h }).prepare 0 [])) ∧
    (c = 0x32 → l = msbBits 0 8 → exec (.xhalt 0) s = .next (a.prepare 0 [])) ∧
    (c = 0x10 → l = msbBits 2 2 → s.brk.b.runs = true → s.brk.b.wait = none → s.brk.b.outMask = 0 → ∃ t, exec (.halt 2) s = .next t ∧
      t.brk.b.halted = true ∧ t.brk.b.cause = 0 ∧ t.brk.a = s.brk.a ∧ t.brk.reply = some (dwReply 0 [])) ∧
    (c = 0x11 → l = msbBits 2 2 → s.brk.b.halted = true → ∃ t, exec (.resume 2) s = .next t ∧
      t.brk.b = { s.brk.b with halted := false } ∧ t.brk.a = s.brk.a ∧ t.brk.reply = some (dwReply 0 [])) ∧
    (∀ p : Fin 2,
      (c = 0x22 → l = msbBits p.val 1 → (s.pairAt p).runs = false → exec (.rddata p) s = .next (a.prepare 0 (msbBits (s.pairAt p).ddata.toNat 32))) ∧
      (c = 0x22 → l = msbBits p.val 1 → (s.pairAt p).runs = true → exec (.rddata p) s = .next (a.prepare 0 (msbBits (freeWord s.fresh).toNat 32))) ∧
      (c = 0x21 → l = msbBits p.val 1 → exec (.result p) s =
        .next (if (s.pairAt p).feedBusy then a.prepare 1 [] else a.prepare 0 (msbBits ((s.pairAt p).result.toNat % 2 ^ 6) 6))) ∧
      (c = 0x24 → l = msbBits p.val 1 → exec (.rdpc p) s =
        .next (if (s.pairAt p).halted then a.prepare 0 (msbBits (s.pairAt p).pc.toNat 32) else a.prepare 2 [])) ∧
      (∀ v, c = 0x23 → l = msbBits p.val 1 ++ msbBits v.toNat 32 → exec (.wrdata p v) s =
        .next ((a.modPair p fun x => { x with ddata := v }).prepare 0 [])) ∧
      (∀ v, c = 0x25 → l = msbBits p.val 1 ++ msbBits v.toNat 32 → exec (.wrpc p v) s =
        .next (if (s.pairAt p).halted then (a.modPair p fun x => { x with pc := v &&& 0xFFFFFFFE }).prepare 0 [] else a.prepare 2 [])) ∧
      (∀ i o, c = 0x30 → l = msbBits p.val 1 ++ msbBits i.toNat 8 ++ msbBits o.toNat 8 → exec (.group p i o) s =
        .next ((a.modPair p fun x => { x with inMask := i, outMask := o }).prepare 0 [])) ∧
      (c = 0x12 → l = msbBits p.val 1 → (s.pairAt p).halted = false → exec (.step p) s = .next (a.prepare 2 [])) ∧
      (c = 0x12 → l = msbBits p.val 1 → (s.pairAt p).halted = true → (s.pairAt p).mie = false → s.rvFetch p (s.pairAt p).pc = some 0x13 →
        (s.pairAt p).outMask = 0 → ∃ t, exec (.step p) s = .next t ∧ (t.pairAt p).pc = (s.pairAt p).pc + 4 ∧ (t.pairAt p).halted = true ∧
          (t.pairAt p).minstret = (s.pairAt p).minstret + 1 ∧ (∀ r, (t.pairAt p).reg r = (s.pairAt p).reg r) ∧ t.ram = s.ram) ∧
      (∀ v, c = 0x20 → l = msbBits p.val 1 ++ msbBits v.toNat 32 → (s.pairAt p).feedBusy = true → exec (.feed p v) s = .next (a.prepare 1 [])) ∧
      (∀ v rd imm, c = 0x20 → l = msbBits p.val 1 ++ msbBits v.toNat 32 → (s.pairAt p).feedBusy = false → (s.pairAt p).halted = true →
        rvDecode v.toNat = some (.lui rd imm) → 0 < rd → s.brk.replyFeed = none → ∃ t, exec (.feed p v) s = .next t ∧ (t.pairAt p).reg rd = imm ∧
          (∀ r, r ≠ rd → (t.pairAt p).reg r = (s.pairAt p).reg r) ∧ (t.pairAt p).pc = (s.pairAt p).pc ∧
          (t.pairAt p).result = 0x40 ∧ t.brk.reply = some (dwReply 0 (msbBits 0 6)))))

/-- The command registers of pair A are denied to every master. Those of pair B, from a master that may, halt it with
cause 2, resume it, step one instruction and feed one; a feed while another executes is answered BUSY. A fed load that
completes puts its value in the register and makes the result readable; one answered with an error leaves the register
and records the error's address. BRK_XHALT halts the pairs whose IN mask meets the mask, with cause 3. (R338, R339,
R340, R341, R342, R352) -/
def Obligations.DebugRegs : Prop :=
  (∀ s m v, s.on = true → ∀ c ∈ [Instr.dbgCtrlHalt m 0, .dbgCtrlResume m 0, .dbgCtrlStep m 0, .dbgFeedWrite m 0 v],
    ∃ t, exec c s = .next t ∧ t.bus = ⟨m, .accessDenied, 0⟩ ∧ t.brk = s.brk) ∧
  (∀ s m, s.admitsWrite m 0xD01040 = true → s.brk.b.outMask = 0 →
    (s.brk.b.runs = true → s.brk.b.wait = none → ∃ t, exec (.dbgCtrlHalt m 1) s = .next t ∧ t.brk.b.halted = true ∧ t.brk.b.cause = 2 ∧
      t.brk.a = s.brk.a ∧ t.bus = ⟨m, .ok, 0⟩ ∧ t.evt = s.evt.push (s.record none .brkHalt (ofFields [(0, 1), (1, 2)]))) ∧
    (s.brk.b.halted = true → exec (.dbgCtrlResume m 1) s = .next ((s.modBrk fun b => { b with b := { b.b with halted := false } }).answer m .ok 0)) ∧
    (s.brk.b.halted = true → s.brk.b.mie = false → s.rvFetch 1 s.brk.b.pc = some 0x13 → ∃ t, exec (.dbgCtrlStep m 1) s = .next t ∧
      t.brk.b.pc = s.brk.b.pc + 4 ∧ t.brk.b.halted = true ∧ t.bus = ⟨m, .ok, 0⟩)) ∧
  (∀ s m v, s.admitsWrite m 0xD01048 = true →
    (s.brk.b.feedBusy = true → exec (.dbgFeedWrite m 1 v) s = .next (s.answer m .busy 0)) ∧
    (∀ rd imm, s.brk.b.feedBusy = false → s.brk.b.halted = true → rvDecode v.toNat = some (.lui rd imm) → 0 < rd → ∃ t,
      exec (.dbgFeedWrite m 1 v) s = .next t ∧ t.brk.b.reg rd = imm ∧ t.brk.b.pc = s.brk.b.pc ∧ t.brk.b.result = 0x40 ∧ t.bus = ⟨m, .ok, 0⟩)) ∧
  (∀ s (p : Fin 2), (s.pairAt p).fedAnswer = none → exec (.feedComplete p) s = .next s) ∧
  (∀ s (p : Fin 2) (w : CoreWait) e v, (s.pairAt p).fedAnswer = some (e, v) → (s.pairAt p).feedBusy = true → (s.pairAt p).wait = some w →
    w.fed = true → w.store = false → w.rd ≠ 0 → w.size = 2 → s.brk.replyFeed = none →
    ∃ t, exec (.feedComplete p) s = .next t ∧ (t.pairAt p).feedBusy = false ∧ (t.pairAt p).wait = none ∧ (t.pairAt p).fedAnswer = none ∧
      (e = .ok → (t.pairAt p).reg w.rd.toNat = BitVec.ofNat 32 v ∧ (t.pairAt p).result = 0x40) ∧
      (e ≠ .ok → (∀ r, (t.pairAt p).reg r = (s.pairAt p).reg r) ∧
        (t.pairAt p).buserr = BitVec.ofNat 32 (w.addr.toNat / 16 * 16 + e.code) ∧ (t.pairAt p).result = 0x55)) ∧
  (∀ s m v, s.admitsWrite m 0xD0002C = true → s.brk.a.inMask = 0 → s.brk.b.runs = true → s.brk.b.wait = none → s.brk.xGlobal = false →
    s.brk.b.inMask &&& BitVec.ofNat 8 (BitVec.toNat (v : Word)) ≠ 0 → ∃ t, exec (.brkXhalt m v) s = .next t ∧ t.brk.b.halted = true ∧
      t.brk.b.cause = 3 ∧ t.brk.a = s.brk.a ∧ t.bus = ⟨m, .ok, 0⟩)

/-- A keyed GO is refused with MODE outside RUN, with BUSY during a burn, with PROTECTED where the mask touches bits 0 to
127 and with LOCKED where it touches a locked bit, in this order; nothing is burned then. Otherwise the word and mask
are burned. Another key, or no GO, does nothing, and a master other than 0 is answered ACCESS_DENIED. When the burn
has been read back, and what read 0 burned once more, every masked bit that burned reads 1 and no other bit has changed; the result is OK with
FUS_PROG_DONE, or VERIFY_FAIL with FUS_PROG_FAIL and the bits that failed. Without a burn under way the command does
nothing. (R352, R359, R360, R361) -/
def Obligations.FuseProgramming : Prop :=
  (∀ s v, s.admitsWrite 0 0xF0000C = true → field v 0 16 = 0x5AF3 → BitVec.getLsbD (v : Word) 31 = true →
    let bits := maskBits s.fus.word s.fus.mask
    let refusedWith (n : BitVec 3) := ∃ t, exec (.fusProg 0 v) s = .next t ∧ t.fus = { s.fus with result := n, resWord := s.fus.word } ∧
      t.bus = ⟨0, .ok, 0⟩ ∧ Frame [.fus, .bus] s t
    (s.mode ≠ .run → refusedWith 5) ∧
    (s.mode = .run → s.fus.burning.isSome = true → refusedWith 1) ∧
    (s.mode = .run → s.fus.burning = none → (∃ i ∈ bits, i < 128) → refusedWith 2) ∧
    (s.mode = .run → s.fus.burning = none → (∀ i ∈ bits, 128 ≤ i) → (∃ i ∈ bits, fuseLocked s.fus.array i = true) → refusedWith 3) ∧
    (s.mode = .run → s.fus.burning = none → (∀ i ∈ bits, 128 ≤ i) → (∀ i ∈ bits, fuseLocked s.fus.array i = false) →
      ∃ t, exec (.fusProg 0 v) s = .next t ∧ t.fus.burning = some (s.fus.word, s.fus.mask) ∧ t.fus.burnAt = s.now ∧
        t.fus.array = s.fus.array ∧ t.bus = ⟨0, .ok, 0⟩ ∧ Frame [.fus, .bus] s t)) ∧
  (∀ s v, s.admitsWrite 0 0xF0000C = true → field v 0 16 ≠ 0x5AF3 ∨ BitVec.getLsbD (v : Word) 31 = false →
    exec (.fusProg 0 v) s = .next (s.answer 0 .ok 0)) ∧
  (∀ s m v, s.on = true → m ≠ 0 → ∃ t, exec (.fusProg m v) s = .next t ∧ t.bus = ⟨m, .accessDenied, 0⟩ ∧
    t.fus.burning = s.fus.burning ∧ t.fus.array = s.fus.array) ∧
  (∀ s w mask again stuck, s.on = true → s.fus.burning = some (w, mask) →
    let x := s.fus.array.getD (BitVec.toNat (w : BitVec 9)) 0
    let new := mask &&& ~~~x; let twice := new &&& again; let bad := twice &&& stuck
    let a := s.advanceTo (s.fus.burnAt + 10000 * (popCount new.toNat 32 + popCount twice.toNat 32))
    ∃ t, exec (.fusProgComplete again stuck) s = .next t ∧ t.now = a.now ∧ t.fus.burning = none ∧ t.fus.resWord = w ∧
      (∀ i, t.fus.array.getD i 0 = if i = w.toNat then x ||| (new &&& ~~~bad) else s.fus.array.getD i 0) ∧
      t.fus.pending = (s.fus.pending || (new &&& ~~~bad) != 0) ∧ t.fus.latched = s.fus.latched ∧ Frame [.fus, .evt] a t ∧
      (if bad = 0 then t.fus.result = 0 ∧ t.evt = s.evt.push (a.record none .fusProgDone (ofFields [(0, w.toNat)]))
        else t.fus.result = 4 ∧ t.fus.fail = bad ∧ t.evt = s.evt.push (a.record none .fusProgFail (ofFields [(0, w.toNat)])))) ∧
  (∀ s again stuck, s.fus.burning = none → exec (.fusProgComplete again stuck) s = .next s)

/-- Every 2 MGT cycles the logger writes the head of the queue at the index of its sequence number and counts the record in its class; a
record whose route names nothing acts on nothing, and one whose route names MSI-X vector v and Brock-B makes v pending
and latches the record for Brock-B. Outside the modes in which it runs, nothing is written; in DEEP an event routed to Brock-A is a wake
source. EVT_RAISE raises EVT_SOFT
of the class written, from the master that wrote. EVT_TRIG_CLR ends LEVEL assertion on the pins it names and changes
no other pin. A read of word 0 of a log record answers it and latches words 1 to 3 of the same record for the reader
alone. (R386, R387, R388, R389, R390, R391, R392) -/
def Obligations.EventLog : Prop :=
  (∀ s r q, s.logging = true → s.evt.queue = r :: q → s.evt.lostSince = 0 → codeClass r.code ≠ 3 → s.evt.routeFor r.code = 0 →
    ∃ t, exec .eventLogWrite s = .next t ∧ Frame [.evt] s.logTick t ∧ t.evt.queue = q ∧ t.evt.seq = s.evt.seq + 1 ∧
      (∀ i, t.evt.log.getD i none = if i = s.evt.seq.toNat % 1024 then some r else s.evt.log.getD i none) ∧
      (∀ c, t.evt.classCount.getD c 0 = if c = codeClass r.code then satInc (s.evt.classCount.getD c 0) else s.evt.classCount.getD c 0) ∧
      t.evt.overwrites = if 1024 ≤ s.evt.seq.toNat then satInc s.evt.overwrites else s.evt.overwrites) ∧
  (∀ s r q v, s.logging = true → s.evt.queue = r :: q → s.evt.lostSince = 0 → codeClass r.code ≠ 3 → v < 2048 →
    s.evt.routeFor r.code = BitVec.ofNat 32 (0x2800 + v) → ∃ t, exec .eventLogWrite s = .next t ∧ Frame [.evt, .hst] s.logTick t ∧
      t.hst.pba.getD v false = true ∧ (∀ i, i ≠ v → t.hst.pba.getD i false = s.hst.pba.getD i false) ∧
      t.evt.brkPend.getLsbD 1 = true ∧ t.evt.brkPend.getLsbD 0 = s.evt.brkPend.getLsbD 0 ∧
      t.evt.brkLastB = BitVec.ofNat 32 s.evt.seq.toNat ∧ t.evt.brkLastA = s.evt.brkLastA) ∧
  (∀ s : State, let t := s.logTick
    t.evt = { s.evt with logAt := max (2 * s.now) (s.evt.logAt + if s.mgtOnAon then 80 else 5) } ∧ t.now = max s.now ((t.evt.logAt + 1) / 2) ∧
      Frame [.evt, .time, .clk, .pwr, .brk] s t) ∧
  (∀ s, (s.logging = true → s.evt.queue = [] → exec .eventLogWrite s = .next s) ∧
    (s.logging = false → s.mode ≠ .deep → exec .eventLogWrite s = .next s) ∧
    (s.logging = false → s.mode = .deep → exec .eventLogWrite s = .next (if s.pwr.waking = none ∧
      ∃ r ∈ s.evt.queue, (s.evt.routeFor r.code).getLsbD 12 = true then s.fireWake 3 else s))) ∧
  (∀ s m v, s.admitsWrite m 0x100005C = true → exec (.evtRaise m v) s = .next ((s.modEvt fun e =>
    e.push (s.record (some m) (.evtSoft (BitVec.ofNat 2 (field v 0 2))) (BitVec.ofNat 32 (field v 8 24)))).answer m .ok 0)) ∧
  (∀ s m v, s.admitsWrite m 0x1000060 = true → ∃ t, exec (.evtTrigClr m v) s = .next t ∧ t.bus = ⟨m, .ok, 0⟩ ∧ Frame [.ioc, .bus] s t ∧
    ∀ n, t.pinAt n = if n < 16 ∧ BitVec.getLsbD (v : Word) n = true ∧ (s.pinAt n).ev = some none then { s.pinAt n with ev := none }
      else s.pinAt n) ∧
  (∀ s m i, let a := 0x1010000 + 16 * BitVec.toNat (i : BitVec 10)
    s.admitsRead m (BitVec.ofNat 48 a) = true → ∃ t, exec (.logRecordRead m i) s = .next t ∧ Frame [.bus, .latch] s t ∧
      t.bus = ⟨m, .ok, s.evt.logWord i.toNat 0⟩ ∧
      (∀ j, 0 < j → j < 4 → t.latch.getD (64 * (a + 4 * j) + m.toNat) 0 = s.evt.logWord i.toNat j) ∧
      (∀ n, n % 64 ≠ m.toNat → t.latch.getD n 0 = s.latch.getD n 0))

/-- The update at the head of the FIFO is written as the record after the last one counted, with a header of HSEQ + 1 and
the new COUNT in the next slot; the 512th record fills the Ledger. The command that waits completes: its entry is
persisted. With the Ledger full or disabled nothing is written, and the command returns OK_NOT_PERSISTED. Updates wait
behind an erase. A keyed ERASE from master 0 in RUN starts the erase; another mode, key or LEDGER_DIS makes it
nothing, another master is answered ACCESS_DENIED. The erase done leaves every record slot erased, a header with COUNT
0 and ERASES + 1, FULL clear and EVT_LEDGER_ERASED raised. (R394, R395, R398, R399) -/
def Obligations.LedgerWrites : Prop :=
  (∀ s u r, s.on = true → s.evt.erasing = false → s.evt.fifo = u :: r → ∃ t, exec .ledgerUpdate s = .next t ∧
    t.evt.fifo = r ++ s.evt.fifoWait.take 1 ∧ t.evt.fifoWait = s.evt.fifoWait.drop 1 ∧ Frame [.evt, .brw, .mem] s t ∧
    (if s.ledgerClosed then t.evt.recs = s.evt.recs ∧ t.evt.hdr = s.evt.hdr ∧ t.evt.raised = s.evt.raised
      else (∀ i, t.evt.recs.getD i none = if i = s.evt.hdr.count then some (s.ledgerRec u) else s.evt.recs.getD i none) ∧
        t.evt.hdr = { s.evt.hdr with hseq := s.evt.hdr.hseq + 1, count := s.evt.hdr.count + 1 } ∧ t.evt.cur = (s.evt.cur + 1) % 64 ∧
        t.evt.hdrs.getD t.evt.cur none = some t.evt.hdr ∧ t.evt.full = decide (512 ≤ s.evt.hdr.count + 1) ∧
        t.evt.raised = s.evt.raised + if 512 ≤ s.evt.hdr.count + 1 then 1 else 0) ∧
    (∀ b e w, u = .brw b e w → t.brw.rmPersist = false ∧ t.brw.rmWhere = BitVec.ofNat 8 (b + 32 * e) ∧ t.brw.rmResult = (if s.ledgerClosed then 4 else 0) ∧
      ((t.bankAt b).remap.getD e {}).persisted =
        if s.ledgerClosed then ((s.bankAt b).remap.getD e {}).persisted else ((s.bankAt b).remap.getD e {}).valid) ∧
    (∀ c e l, u = .mem c e l → t.mem.rmPersist = false ∧ t.mem.rmResult = (if s.ledgerClosed then 4 else 0) ∧
      ((t.chAt c).remap.getD e {}).persisted =
        if s.ledgerClosed then ((s.chAt c).remap.getD e {}).persisted else ((s.chAt c).remap.getD e {}).valid) ∧
    (∀ p, u = .retire p → t.mem.retireBusy = false ∧ t.mem.retire = if s.ledgerClosed then 1 else 0)) ∧
  (∀ s, s.evt.erasing = true ∨ s.evt.fifo = [] → exec .ledgerUpdate s = .next s) ∧
  (∀ s v, s.admitsWrite 0 0x1000048 = true → exec (.ledgerErase 0 v) s = .next
    ((if BitVec.getLsbD (v : Word) 31 = true ∧ field v 0 16 = 0xE5A1 ∧ s.mode = .run ∧ s.ledgerDis = false then
      s.modEvt fun e => { e with erasing := true } else s).answer 0 .ok 0)) ∧
  (∀ s m v, s.on = true → m ≠ 0 → ∃ t, exec (.ledgerErase m v) s = .next t ∧ t.bus = ⟨m, .accessDenied, 0⟩ ∧
    t.evt.erasing = s.evt.erasing ∧ t.evt.recs = s.evt.recs) ∧
  (∀ s, s.on = true → s.evt.erasing = true → ∃ t, exec .ledgerEraseDone s = .next t ∧ Frame [.evt] s t ∧ t.evt.erasing = false ∧
    (∀ i, t.evt.recs.getD i none = none) ∧ t.evt.full = false ∧ t.evt.raised = s.evt.raised + 1 ∧
    t.evt.hdr = { s.evt.hdr with hseq := s.evt.hdr.hseq + 1, count := 0, erases := s.evt.hdr.erases + 1 }) ∧
  (∀ s, s.evt.erasing = false → exec .ledgerEraseDone s = .next s)

/-- For every command and state, a step with the command at the front of the queue is that command's effect on the state
with the queue's rest, and it is a next state: no command stops the block. On an empty queue the fabric and its RAW lanes
have the clock edges of 1 ns, which passes (the model's choice, notes/assumptions/11.md). (95_what_each_step_holds.md) -/
def Obligations.StepRuns : Prop :=
  (∀ c l, ∀ s : State, step (s.setPending (c :: l)) = exec c (s.setPending l)) ∧ (∀ c s, ∃ t, exec c s = .next t) ∧
    ∀ s : State, s.pending = [] → step s = .next ((forN 48 s.rawEdge s.fabricEdge).advance 1)

/-- A register write that the access tables or the fixed entries deny changes nothing but the count of denials, and is
answered ACCESS_DENIED. CFG_REFETCH, BRK_CTRL, FUS_PROG_CMD and EVT_LEDGER_CMD are denied to every master but 0. The
region of a Burrow MiB and of a DDR GiB follows the effective bounds E1 = B1, E2 = max(B1, B2) and E3 = max(E2, B3). A
denial is counted and recorded, and raises PRT_DENIED with its detail unless that was raised within the last 1 ms;
else it adds to the denials left unreported. (R350, R351, R352, R355) -/
def Obligations.AccessTables : Prop :=
  (∀ s m v idx gen (w : Fin 4) (q : Fin 64) (b : Fin 32) (lane : Fin 96) (k : Fin 8), ∀ x ∈ ([(0x58, .tbsDoneBrkb m v),
      (BitVec.ofNat 48 (0x84 + 4 * w.val), .actStageWrite m w v), (0x94, .arm m), (0x94, .cancel m idx gen), (0x94, .query m idx),
      (0x94, .actCmdRelease m), (0x40, .tbsHoldWrite m v), (0x200004, .pwrModeReqWrite m v), (0x20003C, .wakeTimerArm m v),
      (0x200008, .pwrStopReq m v), (0x200064, .stepDepthWrite m v), (0x40001C, .denLoadStart m v), (0x40001C, .denLoadAbort m v),
      (0x300100, .cfgRefetch m v), (0x600040, .validate m v), (0x700040, .brwRemap m v),
      (BitVec.ofNat 48 (0x700100 + 4 * b.val), .brwBankCtrlWrite m b v), (0x800040, .memRemap m v), (0x800050, .memRetireHint m v),
      (BitVec.ofNat 48 (0x80800C + 0x40 * q.val), .dqCmdDrop m q v), (BitVec.ofNat 48 (0x808000 + 0x40 * q.val), .dqCfgWrite m q v),
      (BitVec.ofNat 48 (0x901008 + 0x40 * lane.val), .lanTxfirWrite m lane v), (BitVec.ofNat 48 (0xA01000 + 0x40 * k.val), .spnLinkEnable m k v),
      (0xC00014, .hstMsixSend m v), (0xC0A000, .mbTake m v), (0xC0A000, .mbDone m v), (0xD00004, .brkCtrlWrite m v),
      (0xD0002C, .brkXhalt m v), (0xF0000C, .fusProg m v), (0x100005C, .evtRaise m v), (0x1000060, .evtTrigClr m v),
      (0x1000048, .ledgerErase m v)] : List (Addr × Instr)), s.refusesWrite m x.1 = true →
    exec x.2 s = .next ((s.deny m (csrTarget (x.1.toNat / 0x100000)) true false).answer m .accessDenied 0)) ∧
  (∀ (s : State) (m : MasterId), s.on = true → m ≠ 0 → ∀ a ∈ [0x300100, 0xD00004, 0xF0000C, 0x1000048], s.refusesWrite m (BitVec.ofNat 48 a) = true) ∧
  (∀ (s : State) o, o < 0x4000000 → let b1 := s.fuse 4224 7; let b2 := s.fuse 4231 7; let b3 := s.fuse 4238 7; let u := o / 0x100000
    s.target (BitVec.ofNat 48 (0x40000000 + o)) (.burrow o) =
      some (if u < b1 then 9 else if u < max b1 b2 then 10 else if u < max (max b1 b2) b3 then 11 else 12)) ∧
  (∀ (s : State) o, o < 0x4000000000 → let b1 := s.fuse 4245 9; let b2 := s.fuse 4254 9; let b3 := s.fuse 4263 9; let u := o / 0x40000000
    s.target (BitVec.ofNat 48 (0x10000000000 + o)) (.ddr o) =
      some (if u < b1 then 13 else if u < max b1 b2 then 14 else if u < max (max b1 b2) b3 then 15 else 16)) ∧
  (∀ s m t wr remote, let u := State.deny s m t wr remote
    let det := m.toNat + 2 ^ 8 * t + 2 ^ 13 * Bool.toNat wr + 2 ^ 14 * Bool.toNat remote
    u.fus.denyCount = satInc s.fus.denyCount ∧ u.fus.denyLast = BitVec.ofNat 32 (det + 2 ^ 31) ∧ Frame [.fus, .evt] s u ∧
    ((∀ x, s.fus.denyAt = some x → x + 1000000 ≤ s.now) → u.fus.unreported = 0 ∧ u.fus.denyAt = some s.now ∧
      u.evt = s.evt.push (s.record (some m) .prtDenied (BitVec.ofNat 32 (det + 2 ^ 16 * min s.fus.unreported 65535)))) ∧
    (∀ x, s.fus.denyAt = some x → s.now < x + 1000000 → u.evt = s.evt ∧ u.fus.unreported = s.fus.unreported + 1))

/-- After reset the registers that the manual's tables give a value for hold it: the limits and the budget of the power
registers, the leaky buckets, the scrubs and patrols, the frame size, the host's limits, Brock-B's run bit, the timer
compare registers. The queue of commands and the byte memory list nothing. The machine's invariants hold. (R105, R155,
R224, R245, R302, R323) -/
def Obligations.ResetState : Prop :=
  (∀ x ∈ [(0x84, 0), (0x90, 0), (0x200030, 0x3A), (0x200050, 0), (0x200060, 10), (0x200064, 2000), (0x200068, 2000), (0x20007C, 0),
      (0x401000, 0), (0x401010, 100000), (0x500044, 0x640040), (0x700070, 1), (0x703100, 0x640020), (0x80101C, 0x3E80010),
      (0x801020, 0x800003E8), (0xB00004, 0), (0xB00110, 1518), (0xC00004, 0), (0xC0000C, 5000), (0xC00100, 0), (0xC00108, 0),
      (0xD00004, 1), (0xD00020, 0), (0xD00028, 0), (0xD01000, 0), (0xE00010, 0)], State.reset.csrRaw 0 x.1 = some (BitVec.ofNat 32 x.2)) ∧
  (State.reset.pairAt 0).mtimecmp = BitVec.allOnes 64 ∧ (State.reset.pairAt 1).mtimecmp = BitVec.allOnes 64 ∧
  State.reset.pending = [] ∧ State.reset.ram = [] ∧ CreditsKept State.reset ∧ BudgetKept State.reset ∧ TokensKept State.reset ∧
  EventsKept State.reset ∧ ListsBounded State.reset ∧ MemoryKept State.reset

/-- From every state in which the credits of every trail link and bridge add up to its 8 places on each virtual channel, held,
in flight, occupied or returning, each step leaves them so, whatever command it runs: credits are neither created nor lost.
From every state in which the step budget holds at most its depth, each step leaves it so. (R100, R198) -/
def Obligations.CreditsStay : Prop :=
  (∀ s t, CreditsKept s → step s = .next t → CreditsKept t) ∧ ∀ s t, BudgetKept s → step s = .next t → BudgetKept t

/-- From every state in which the 64 tokens of every decoupling queue are free, outstanding with a push, or unread with a
packet, each step leaves them so. From every state in which every event raised is written to the log, waiting in the input
queue of 64 entries, or counted as lost, each step leaves it so. (R236, R386, R388, R389) -/
def Obligations.TokensAndEventsStay : Prop :=
  (∀ s t, TokensKept s → step s = .next t → TokensKept t) ∧ ∀ s t, EventsKept s → step s = .next t → EventsKept t

/-- Whatever command a step runs, a fuse bit that is set stays set, through resets, losses of rails and stopped burns. The
latched values change in no step that does not end in SENSE, RAMP or OFF. (R353, R359, R361, R362) -/
def Obligations.FusesOnlyRise : Prop :=
  (∀ s t i, step s = .next t → fuseBit s.fus.array i = true → fuseBit t.fus.array i = true) ∧
  (∀ s t, step s = .next t → t.fus.latched = s.fus.latched ∨ t.mode = .sense ∨ t.mode = .ramp ∨ t.mode = .off)

/-- Each step leaves byte memory in its canonical form, the known-bad lists within 16 words, 4 granules and 8 lines, the
Ledger FIFO within 16 entries, the tracked span requests within 1,024, and the timed-action table in its canonical form.
(R28, R170, R209, R230, R276, R394) -/
def Obligations.MemoryAndListsStay : Prop :=
  (∀ s t, MemoryKept s → step s = .next t → MemoryKept t) ∧ ∀ s t, ListsBounded s → step s = .next t → ListsBounded t

/-- Every well-formed packet, laid out as a header flit by Table 7.3 and data flits of 64 bytes, is found whole at the
head of a receive buffer whatever follows it, and is read back as the same packet, every field at every value. Its
header is well formed, with the copy of its source, and every well-formed 128-bit header is the header of the fields
it is read as. (R185, R259) -/
def Obligations.PacketRoundTrip : Prop :=
  (∀ (p : Packet) (rest : List Flit), (p.reqOk = true ∧ p.hdr.opc ∈ [opRead, opWrite, opAdd, opSwap, opPush]) ∨
      (p.hdr.opc = opRsp ∧ (p.data = [] ∨ p.data.length = p.hdr.bytes)) →
    let f := packetFlits (packHdr p.hdr) p.flitClass p.hdr.epoch p.data p.dataFlits
    wholePacket (f ++ rest) = some (f, rest) ∧ flitsPacket f = p) ∧
  (∀ h, hdrWellFormed (packHdr h) = true) ∧ ∀ b, hdrWellFormed b = true → packHdr (unpackHdr b) = b

/-- In two states that differ at most in the fuse words of AES_KEY, words 150 to 157, every register read by every master
is answered the same and latches the same; a read of one of these words is answered OK with 0. (R353, R366) -/
def Obligations.KeyUnreadable : Prop :=
  (∀ s m a l l', (∀ i, i < 150 ∨ 157 < i → Tab.getD l i 0 = s.fus.latched.getD i 0 ∧ Tab.getD l' i 0 = s.fus.array.getD i 0) →
    ∃ t u, exec (.rcRead m a) s = .next t ∧
      exec (.rcRead m a) (s.modFus fun f => { f with latched := l, array := l' }) = .next u ∧ u.bus = t.bus ∧ u.latch = t.latch) ∧
  (∀ s m w, 150 ≤ w → w ≤ 157 → s.admitsRead m (BitVec.ofNat 48 (0xF01000 + 4 * w)) = true →
    exec (.rcRead m (BitVec.ofNat 48 (0xF01000 + 4 * w))) s = .next (s.answer m .ok 0))
end

