-- ==== Sys2Proof/Laws/Access.lean ====
section
/-! SUPPORT. What the shared operations over accesses, time, events and tables do, each said once. -/

namespace Sys2Proof.Machine

/-! ## Accesses -/

theorem State.whenOn_of_on {s : State} (k : State → State) (h : s.on = true) : s.whenOn k = k s := by
  simp [State.whenOn, h]

theorem State.whenOn_of_off {s : State} (k : State → State) (h : s.on = false) : s.whenOn k = s := by
  simp [State.whenOn, h]

theorem State.admitsWrite_on {s : State} {m : MasterId} {a : Addr} (h : s.admitsWrite m a = true) : s.on = true := by
  simp only [State.admitsWrite, Bool.and_eq_true] at h
  exact h.1.1

theorem State.admitsRead_on {s : State} {m : MasterId} {a : Addr} (h : s.admitsRead m a = true) : s.on = true := by
  simp only [State.admitsRead, Bool.and_eq_true] at h
  exact h.1

/-- An admitted write runs its effect on the state it found. -/
theorem State.access_admitsWrite {s : State} {m : MasterId} {a : Addr} (k : State → State)
    (h : s.admitsWrite m a = true) : s.access m a true k = k s := by
  rw [State.access, State.whenOn_of_on _ (State.admitsWrite_on h)]
  simp only [State.admitsWrite, Bool.and_eq_true, Bool.not_eq_true'] at h
  simp [h.1.2, h.2]

/-- An admitted read runs its effect on the state it found. -/
theorem State.access_admitsRead {s : State} {m : MasterId} {a : Addr} (k : State → State)
    (h : s.admitsRead m a = true) : s.access m a false k = k s := by
  rw [State.access, State.whenOn_of_on _ (State.admitsRead_on h)]
  simp only [State.admitsRead, Bool.and_eq_true, Bool.not_eq_true'] at h
  simp [h.2]

/-- A write that is turned away has no effect but the denial's own (R350, R355). -/
theorem State.access_refusesWrite {s : State} {m : MasterId} {a : Addr} (k : State → State)
    (h : s.refusesWrite m a = true) :
    s.access m a true k = (s.deny m (csrTarget (a.toNat / 0x100000)) true false).answer m .accessDenied 0 := by
  simp only [State.refusesWrite, Bool.and_eq_true] at h
  rw [State.access, State.whenOn_of_on _ h.1]
  simp only [Bool.true_and, Bool.not_true, h.2, if_true]

theorem State.regWrite_admits {s : State} {m : MasterId} {a : Addr} (k : State → State)
    (h : s.admitsWrite m a = true) : s.regWrite m a k = (k s).answer m .ok 0 := State.access_admitsWrite _ h

theorem State.regTry_admits {s : State} {m : MasterId} {a : Addr} (k : State → State × Err)
    (h : s.admitsWrite m a = true) : s.regTry m a k = (k s).1.answer m (k s).2 0 := State.access_admitsWrite _ h

/-! ## Events -/

/-- Raising an event puts one record in the queue, or counts it as lost (R386). -/
theorem State.raiseBy_eq (s : State) (m : Option MasterId) (e : Ev) (d : Word) :
    s.raiseBy m e d = s.modEvt fun x => x.push (s.record m e d) := rfl

theorem State.raise_eq (s : State) (e : Ev) (d : Word) : s.raise e d = s.modEvt fun x => x.push (s.record none e d) := rfl

theorem insertEvent_length (r : EvRec) (l : List EvRec) : (insertEvent r l).length = l.length + 1 := by
  induction l with
  | nil => rfl
  | cons x l ih => simp only [insertEvent]; split <;> simp [ih]

theorem insertEvent_mem (r : EvRec) (l : List EvRec) : r ∈ insertEvent r l := by
  induction l with
  | nil => simp [insertEvent]
  | cons x l ih => simp only [insertEvent]; split <;> simp [ih]

/-- A record enters a queue with room, and the number of records raised and lost goes with it. -/
theorem Evt.push_room {e : Evt} (r : EvRec) (h : e.queue.length < 64) :
    e.push r = { e with queue := insertEvent r e.queue, raised := e.raised + 1 } := by simp [Evt.push, h]

/-! ## Time -/

@[simp] theorem State.advance_now (s : State) (n : Nat) : (s.advance n).now = s.now + n := rfl
@[simp] theorem State.advance_pending (s : State) (n : Nat) : (s.advance n).pending = s.pending := rfl
@[simp] theorem State.advance_evt (s : State) (n : Nat) : (s.advance n).evt = s.evt := rfl
@[simp] theorem State.advance_fus (s : State) (n : Nat) : (s.advance n).fus = s.fus := rfl
@[simp] theorem State.advance_ram (s : State) (n : Nat) : (s.advance n).ram = s.ram := rfl

/-! ## Loops -/

/-- A property that each pass keeps holds after the loop. -/
theorem forN_keeps {P : State → Prop} {n : Nat} {f : Nat → State → State} (hf : ∀ i s, P s → P (f i s)) {s : State}
    (h : P s) : P (forN n f s) := by
  unfold forN
  generalize List.range n = l
  induction l generalizing s with
  | nil => exact h
  | cons i l ih => exact ih (hf i s h)

end Sys2Proof.Machine
end

