-- ==== Sys2Proof/Laws/Fabric.lean ====
section
/-! SUPPORT. Laws of the fabric's components: the CRAM layout meets each word once within 8 columns (R157), the half tables
of a LUT, and single edges of components against values worked out from the manual by hand. -/

namespace Sys2Proof.Machine

/-- Two cells of a frame within 8 adjacent columns that hold bits of one word are the same cell (R157). -/
theorem cramCell_word_once {r r' c c' : Nat} (near : c ≤ c' + 7) (near' : c' ≤ c + 7)
    (same : (cramCell r c).1 = (cramCell r' c').1) : r = r' ∧ c = c' := by
  simp only [cramCell] at same
  omega

/-- Cells of a frame lie in its 64 words of 72 bits (R157). -/
theorem cramCell_range {r c : Nat} (hr : r < 8) (hc : c < 576) : (cramCell r c).1 < 64 ∧ (cramCell r c).2 < 72 := by
  simp only [cramCell]
  omega

/-- YL is YF with I5 at 0 (R108). -/
theorem lutYf_low (b : BitVec 64) (i : BitVec 5) : lutYf b i false = lutYl b i := by simp [lutYf, lutYl]

/-- While the acknowledge has not come back, the source keeps the value it sent (R71). -/
theorem HoldFlag.source_waits {n : Nat} {h : HoldFlag} (wait : lastStage n (shiftIn n h.seen h.back) ≠ h.flag) (send : Bool)
    (v : BitVec 36) : (h.source n send v).value = h.value ∧ (h.source n send v).flag = h.flag := by
  simp [HoldFlag.source, wait]

/-- The destination takes the value that the source holds, once for each change of the flag (R71). -/
theorem HoldFlag.dest_takes {n : Nat} {h : HoldFlag} (moved : lastStage n (shiftIn n h.flag h.there) ≠ h.seen) :
    (h.dest n).taken = h.value ∧ (h.dest n).seen = !h.seen := by
  simp [HoldFlag.dest, moved]

/-- With its write enables blocked, a Sett port writes nothing (R122, R150). -/
theorem SettIn.block_we (i : SettIn) : (i.block true).we = 0 := rfl

/-- Within the bounds, ACC takes the exact result and OVF stays (R125). -/
theorem bearNarrow_exact {x : Int} (lo : -(2 ^ 71) ≤ x) (hi : x < 2 ^ 71) (sat : Bool) :
    bearNarrow sat x = (BitVec.ofInt 72 x, false) := by
  have hl : ¬ x < -(2 ^ 71) := by omega
  have hh : ¬ (2 : Int) ^ 71 ≤ x := by omega
  simp only [bearNarrow, hl, hh, decide_false, Bool.or_self, and_false, Bool.false_eq_true, ite_false]

/-- SAT mode stops at the largest value (R125). -/
theorem test_bear_saturates : bearNarrow true (2 ^ 71) = (0x7FFFFFFFFFFFFFFFFF, true) := by decide +kernel

/-- 1.5 × 2.0 + 0.25 = 3.25 in FP16 (R127). -/
theorem test_bear_half : bearMac false 0x3E800000 0x3E00 0x4000 = (0x40500000, false) := by decide +kernel

/-- Region (3, 5) is den 3 × 4 + 2 (R106). -/
theorem test_region_den : regionDen 3 5 = 14 ∧ denRegions 14 = [(3, 4), (3, 5)] := by decide +kernel

end Sys2Proof.Machine
end

