-- ==== Sys2Proof/Laws/Memory.lean ====
section
/-! SUPPORT. The laws of sparse tables and memory: read after write, and the canonical form. -/

namespace Sys2Proof.Machine

variable {α : Type}

/-! ## Reading after writing -/

theorem findCell_insertCell (i : Nat) (v : α) (l : List (Nat × α)) : findCell i (insertCell i v l) = some v := by
  induction l with
  | nil => simp [insertCell, findCell]
  | cons c l ih =>
    simp only [insertCell]
    split
    · simp [findCell]
    · split
      · simp [findCell]
      · simp_all [findCell]

theorem findCell_insertCell_of_ne {i j : Nat} (h : i ≠ j) (v : α) (l : List (Nat × α)) :
    findCell j (insertCell i v l) = findCell j l := by
  induction l with
  | nil => simp [insertCell, findCell, h]
  | cons c l ih =>
    simp only [insertCell]
    split
    · simp [findCell, h]
    · split
      · simp_all [findCell]
      · simp only [findCell, ih]

theorem findCell_eraseCell (i : Nat) (l : List (Nat × α)) : findCell i (eraseCell i l) = none := by
  induction l with
  | nil => rfl
  | cons c l ih => simp only [eraseCell]; split <;> simp_all [findCell]

theorem findCell_eraseCell_of_ne {i j : Nat} (h : i ≠ j) (l : List (Nat × α)) :
    findCell j (eraseCell i l) = findCell j l := by
  induction l with
  | nil => rfl
  | cons c l ih =>
    simp only [eraseCell]
    split
    · rename_i hc
      simp only [ih, findCell]
      rw [if_neg (by omega)]
    · simp only [findCell, ih]

@[simp] theorem Tab.getD_set_self [DecidableEq α] (t : Tab α) (d : α) (i : Nat) (v : α) : (t.set d i v).getD i d = v := by
  unfold Tab.set
  split <;> simp_all [Tab.getD, findCell_eraseCell, findCell_insertCell]

theorem Tab.getD_set_of_ne [DecidableEq α] (t : Tab α) (d : α) {i j : Nat} (h : i ≠ j) (v e : α) :
    (t.set d i v).getD j e = t.getD j e := by
  unfold Tab.set
  split <;> simp [Tab.getD, findCell_eraseCell_of_ne h, findCell_insertCell_of_ne h]

@[simp] theorem Tab.getD_mod_self [DecidableEq α] (t : Tab α) (d : α) (i : Nat) (f : α → α) :
    (t.mod d i f).getD i d = f (t.getD i d) := by simp [Tab.mod]

theorem Tab.getD_mod_of_ne [DecidableEq α] (t : Tab α) (d : α) {i j : Nat} (h : i ≠ j) (f : α → α) (e : α) :
    (t.mod d i f).getD j e = t.getD j e := Tab.getD_set_of_ne t d h _ e

/-- What index j of a table holds after one entry changed. -/
theorem Tab.getD_mod [DecidableEq α] (t : Tab α) (d : α) (i j : Nat) (f : α → α) :
    (t.mod d i f).getD j d = if i = j then f (t.getD j d) else t.getD j d := by
  split
  · subst_vars; simp
  · rename_i h; exact Tab.getD_mod_of_ne t d h f d

@[simp] theorem Tab.getD_empty (i : Nat) (d : α) : ({} : Tab α).getD i d = d := rfl

@[simp] theorem Memory.read_write_self (m : Memory) (a : Nat) (b : Byte) : Memory.read (Memory.write m a b) a = b := by
  unfold Memory.write
  split <;> simp_all [Memory.read, findCell_eraseCell, findCell_insertCell]

theorem Memory.read_write_of_ne (m : Memory) {a c : Nat} (h : a ≠ c) (b : Byte) :
    Memory.read (Memory.write m a b) c = Memory.read m c := by
  unfold Memory.write
  split <;> simp [Memory.read, findCell_eraseCell_of_ne h, findCell_insertCell_of_ne h]

/-! ## The canonical form -/

variable [DecidableEq α]

/-- An index lies above a lower bound. -/
def Above (lo : Option Nat) (i : Nat) : Prop := ∀ l, lo = some l → l < i

theorem cellsWf_cons (d : α) (lo : Option Nat) (j : Nat) (v : α) (l : List (Nat × α)) :
    cellsWf d lo ((j, v) :: l) = true ↔ Above lo j ∧ v ≠ d ∧ cellsWf d (some j) l = true := by
  cases lo <;> simp [cellsWf, Above, and_assoc]

theorem cellsWf_weaken (d : α) {lo lo' : Option Nat} (h : ∀ i, Above lo i → Above lo' i) {l : List (Nat × α)}
    (w : cellsWf d lo l = true) : cellsWf d lo' l = true := by
  cases l with
  | nil => rfl
  | cons c l => rw [cellsWf_cons] at w ⊢; exact ⟨h _ w.1, w.2⟩

theorem cellsWf_insert (d : α) {lo : Option Nat} {i : Nat} {v : α} {l : List (Nat × α)} (hi : Above lo i) (hv : v ≠ d)
    (w : cellsWf d lo l = true) : cellsWf d lo (insertCell i v l) = true := by
  induction l generalizing lo with
  | nil => rw [insertCell, cellsWf_cons]; exact ⟨hi, hv, rfl⟩
  | cons c l ih =>
    obtain ⟨j, u⟩ := c
    rw [cellsWf_cons] at w
    simp only [insertCell]
    split
    · rename_i h
      rw [cellsWf_cons, cellsWf_cons]
      exact ⟨hi, hv, fun l hl => by cases hl; exact h, w.2⟩
    · split
      · rename_i h; subst h
        rw [cellsWf_cons]; exact ⟨hi, hv, w.2.2⟩
      · rw [cellsWf_cons]
        exact ⟨w.1, w.2.1, ih (fun l hl => by cases hl; omega) w.2.2⟩

theorem cellsWf_erase (d : α) {lo : Option Nat} {i : Nat} {l : List (Nat × α)} (w : cellsWf d lo l = true) :
    cellsWf d lo (eraseCell i l) = true := by
  induction l generalizing lo with
  | nil => rfl
  | cons c l ih =>
    obtain ⟨j, u⟩ := c
    rw [cellsWf_cons] at w
    simp only [eraseCell]
    split
    · refine ih (cellsWf_weaken d ?_ w.2.2)
      intro k hk l hl
      exact Nat.lt_trans (w.1 l hl) (hk j rfl)
    · rw [cellsWf_cons]; exact ⟨w.1, w.2.1, ih w.2.2⟩

theorem cellsWf_filter (d : α) (p : Nat × α → Bool) {lo : Option Nat} {l : List (Nat × α)} (w : cellsWf d lo l = true) :
    cellsWf d lo (l.filter p) = true := by
  induction l generalizing lo with
  | nil => rfl
  | cons c l ih =>
    obtain ⟨j, u⟩ := c
    rw [cellsWf_cons] at w
    simp only [List.filter]
    split
    · rw [cellsWf_cons]; exact ⟨w.1, w.2.1, ih w.2.2⟩
    · refine ih (cellsWf_weaken d ?_ w.2.2)
      intro k hk l hl
      exact Nat.lt_trans (w.1 l hl) (hk j rfl)

/-- Storing keeps a table's canonical form. -/
theorem Tab.wf_set {t : Tab α} {d : α} (i : Nat) (v : α) (w : t.wf d = true) : (t.set d i v).wf d = true := by
  unfold Tab.set
  split
  · exact cellsWf_erase d w
  · rename_i h; exact cellsWf_insert d (fun _ hl => by cases hl) h w

theorem Tab.wf_mod {t : Tab α} {d : α} (i : Nat) (f : α → α) (w : t.wf d = true) : (t.mod d i f).wf d = true :=
  Tab.wf_set i _ w

/-- A write keeps memory's canonical form. -/
theorem Memory.wf_write {m : Memory} (a : Nat) (b : Byte) (w : Memory.wf m = true) : Memory.wf (Memory.write m a b) = true := by
  unfold Memory.write
  split
  · exact cellsWf_erase 0 w
  · rename_i h; exact cellsWf_insert 0 (fun _ hl => by cases hl) h w

theorem Memory.wf_writeN {m : Memory} (a : Nat) (l : List Byte) (w : Memory.wf m = true) :
    Memory.wf (Memory.writeN m a l) = true := by
  induction l generalizing m a with
  | nil => exact w
  | cons b l ih => exact ih _ (Memory.wf_write a b w)

theorem Memory.wf_filter {m : Memory} (p : Host.Cell → Bool) (w : Memory.wf m = true) : Memory.wf (m.filter p) = true :=
  cellsWf_filter 0 p w

/-- A byte outside the bytes written reads as before. -/
theorem Memory.read_writeN_of_lt {m : Memory} {a c : Nat} (l : List Byte) (h : c < a ∨ a + l.length ≤ c) :
    Memory.read (Memory.writeN m a l) c = Memory.read m c := by
  induction l generalizing m a with
  | nil => rfl
  | cons b l ih =>
    simp only [List.length_cons] at h
    rw [Memory.writeN, ih (by omega), Memory.read_write_of_ne _ (by omega)]

/-- Byte k of the bytes written reads as written. -/
theorem Memory.read_writeN {m : Memory} (a : Nat) (l : List Byte) (k : Nat) (h : k < l.length) :
    Memory.read (Memory.writeN m a l) (a + k) = l[k] := by
  induction l generalizing m a k with
  | nil => simp at h
  | cons b l ih =>
    cases k with
    | zero => rw [Memory.writeN, Memory.read_writeN_of_lt l (by omega)]; simp
    | succ k =>
      have := ih (m := Memory.write m a b) (a + 1) k (by simpa using h)
      rw [Memory.writeN, show a + (k + 1) = a + 1 + k by omega, this]; rfl

end Sys2Proof.Machine
end

