-- ==== Sys2Proof/Laws/State.lean ====
section
/-! SUPPORT. What each update of a part of the state leaves and sets, one lemma per field per update, so that no proof unfolds
a record update. -/

namespace Sys2Proof.Machine.State

section modTime
variable (s : State) (f : TimeSt → TimeSt)
@[simp] theorem modTime_pending : (s.modTime f).pending = s.pending := rfl
@[simp] theorem modTime_bus : (s.modTime f).bus = s.bus := rfl
@[simp] theorem modTime_time : (s.modTime f).time = f s.time := rfl
@[simp] theorem modTime_tbs : (s.modTime f).tbs = s.tbs := rfl
@[simp] theorem modTime_clk : (s.modTime f).clk = s.clk := rfl
@[simp] theorem modTime_pwr : (s.modTime f).pwr = s.pwr := rfl
@[simp] theorem modTime_ioc : (s.modTime f).ioc = s.ioc := rfl
@[simp] theorem modTime_den : (s.modTime f).den = s.den := rfl
@[simp] theorem modTime_bdg : (s.modTime f).bdg = s.bdg := rfl
@[simp] theorem modTime_vnx : (s.modTime f).vnx = s.vnx := rfl
@[simp] theorem modTime_brw : (s.modTime f).brw = s.brw := rfl
@[simp] theorem modTime_mem : (s.modTime f).mem = s.mem := rfl
@[simp] theorem modTime_lan : (s.modTime f).lan = s.lan := rfl
@[simp] theorem modTime_spn : (s.modTime f).spn = s.spn := rfl
@[simp] theorem modTime_mac : (s.modTime f).mac = s.mac := rfl
@[simp] theorem modTime_hst : (s.modTime f).hst = s.hst := rfl
@[simp] theorem modTime_brk : (s.modTime f).brk = s.brk := rfl
@[simp] theorem modTime_fus : (s.modTime f).fus = s.fus := rfl
@[simp] theorem modTime_evt : (s.modTime f).evt = s.evt := rfl
@[simp] theorem modTime_fab : (s.modTime f).fab = s.fab := rfl
@[simp] theorem modTime_ram : (s.modTime f).ram = s.ram := rfl
@[simp] theorem modTime_latch : (s.modTime f).latch = s.latch := rfl
@[simp] theorem modTime_fresh : (s.modTime f).fresh = s.fresh := rfl
end modTime

section modTbs
variable (s : State) (f : Tbs → Tbs)
@[simp] theorem modTbs_pending : (s.modTbs f).pending = s.pending := rfl
@[simp] theorem modTbs_bus : (s.modTbs f).bus = s.bus := rfl
@[simp] theorem modTbs_time : (s.modTbs f).time = s.time := rfl
@[simp] theorem modTbs_tbs : (s.modTbs f).tbs = f s.tbs := rfl
@[simp] theorem modTbs_clk : (s.modTbs f).clk = s.clk := rfl
@[simp] theorem modTbs_pwr : (s.modTbs f).pwr = s.pwr := rfl
@[simp] theorem modTbs_ioc : (s.modTbs f).ioc = s.ioc := rfl
@[simp] theorem modTbs_den : (s.modTbs f).den = s.den := rfl
@[simp] theorem modTbs_bdg : (s.modTbs f).bdg = s.bdg := rfl
@[simp] theorem modTbs_vnx : (s.modTbs f).vnx = s.vnx := rfl
@[simp] theorem modTbs_brw : (s.modTbs f).brw = s.brw := rfl
@[simp] theorem modTbs_mem : (s.modTbs f).mem = s.mem := rfl
@[simp] theorem modTbs_lan : (s.modTbs f).lan = s.lan := rfl
@[simp] theorem modTbs_spn : (s.modTbs f).spn = s.spn := rfl
@[simp] theorem modTbs_mac : (s.modTbs f).mac = s.mac := rfl
@[simp] theorem modTbs_hst : (s.modTbs f).hst = s.hst := rfl
@[simp] theorem modTbs_brk : (s.modTbs f).brk = s.brk := rfl
@[simp] theorem modTbs_fus : (s.modTbs f).fus = s.fus := rfl
@[simp] theorem modTbs_evt : (s.modTbs f).evt = s.evt := rfl
@[simp] theorem modTbs_fab : (s.modTbs f).fab = s.fab := rfl
@[simp] theorem modTbs_ram : (s.modTbs f).ram = s.ram := rfl
@[simp] theorem modTbs_latch : (s.modTbs f).latch = s.latch := rfl
@[simp] theorem modTbs_fresh : (s.modTbs f).fresh = s.fresh := rfl
end modTbs

section modClk
variable (s : State) (f : Clk → Clk)
@[simp] theorem modClk_pending : (s.modClk f).pending = s.pending := rfl
@[simp] theorem modClk_bus : (s.modClk f).bus = s.bus := rfl
@[simp] theorem modClk_time : (s.modClk f).time = s.time := rfl
@[simp] theorem modClk_tbs : (s.modClk f).tbs = s.tbs := rfl
@[simp] theorem modClk_clk : (s.modClk f).clk = f s.clk := rfl
@[simp] theorem modClk_pwr : (s.modClk f).pwr = s.pwr := rfl
@[simp] theorem modClk_ioc : (s.modClk f).ioc = s.ioc := rfl
@[simp] theorem modClk_den : (s.modClk f).den = s.den := rfl
@[simp] theorem modClk_bdg : (s.modClk f).bdg = s.bdg := rfl
@[simp] theorem modClk_vnx : (s.modClk f).vnx = s.vnx := rfl
@[simp] theorem modClk_brw : (s.modClk f).brw = s.brw := rfl
@[simp] theorem modClk_mem : (s.modClk f).mem = s.mem := rfl
@[simp] theorem modClk_lan : (s.modClk f).lan = s.lan := rfl
@[simp] theorem modClk_spn : (s.modClk f).spn = s.spn := rfl
@[simp] theorem modClk_mac : (s.modClk f).mac = s.mac := rfl
@[simp] theorem modClk_hst : (s.modClk f).hst = s.hst := rfl
@[simp] theorem modClk_brk : (s.modClk f).brk = s.brk := rfl
@[simp] theorem modClk_fus : (s.modClk f).fus = s.fus := rfl
@[simp] theorem modClk_evt : (s.modClk f).evt = s.evt := rfl
@[simp] theorem modClk_fab : (s.modClk f).fab = s.fab := rfl
@[simp] theorem modClk_ram : (s.modClk f).ram = s.ram := rfl
@[simp] theorem modClk_latch : (s.modClk f).latch = s.latch := rfl
@[simp] theorem modClk_fresh : (s.modClk f).fresh = s.fresh := rfl
end modClk

section modPwr
variable (s : State) (f : Pwr → Pwr)
@[simp] theorem modPwr_pending : (s.modPwr f).pending = s.pending := rfl
@[simp] theorem modPwr_bus : (s.modPwr f).bus = s.bus := rfl
@[simp] theorem modPwr_time : (s.modPwr f).time = s.time := rfl
@[simp] theorem modPwr_tbs : (s.modPwr f).tbs = s.tbs := rfl
@[simp] theorem modPwr_clk : (s.modPwr f).clk = s.clk := rfl
@[simp] theorem modPwr_pwr : (s.modPwr f).pwr = f s.pwr := rfl
@[simp] theorem modPwr_ioc : (s.modPwr f).ioc = s.ioc := rfl
@[simp] theorem modPwr_den : (s.modPwr f).den = s.den := rfl
@[simp] theorem modPwr_bdg : (s.modPwr f).bdg = s.bdg := rfl
@[simp] theorem modPwr_vnx : (s.modPwr f).vnx = s.vnx := rfl
@[simp] theorem modPwr_brw : (s.modPwr f).brw = s.brw := rfl
@[simp] theorem modPwr_mem : (s.modPwr f).mem = s.mem := rfl
@[simp] theorem modPwr_lan : (s.modPwr f).lan = s.lan := rfl
@[simp] theorem modPwr_spn : (s.modPwr f).spn = s.spn := rfl
@[simp] theorem modPwr_mac : (s.modPwr f).mac = s.mac := rfl
@[simp] theorem modPwr_hst : (s.modPwr f).hst = s.hst := rfl
@[simp] theorem modPwr_brk : (s.modPwr f).brk = s.brk := rfl
@[simp] theorem modPwr_fus : (s.modPwr f).fus = s.fus := rfl
@[simp] theorem modPwr_evt : (s.modPwr f).evt = s.evt := rfl
@[simp] theorem modPwr_fab : (s.modPwr f).fab = s.fab := rfl
@[simp] theorem modPwr_ram : (s.modPwr f).ram = s.ram := rfl
@[simp] theorem modPwr_latch : (s.modPwr f).latch = s.latch := rfl
@[simp] theorem modPwr_fresh : (s.modPwr f).fresh = s.fresh := rfl
end modPwr

section modIoc
variable (s : State) (f : Ioc → Ioc)
@[simp] theorem modIoc_pending : (s.modIoc f).pending = s.pending := rfl
@[simp] theorem modIoc_bus : (s.modIoc f).bus = s.bus := rfl
@[simp] theorem modIoc_time : (s.modIoc f).time = s.time := rfl
@[simp] theorem modIoc_tbs : (s.modIoc f).tbs = s.tbs := rfl
@[simp] theorem modIoc_clk : (s.modIoc f).clk = s.clk := rfl
@[simp] theorem modIoc_pwr : (s.modIoc f).pwr = s.pwr := rfl
@[simp] theorem modIoc_ioc : (s.modIoc f).ioc = f s.ioc := rfl
@[simp] theorem modIoc_den : (s.modIoc f).den = s.den := rfl
@[simp] theorem modIoc_bdg : (s.modIoc f).bdg = s.bdg := rfl
@[simp] theorem modIoc_vnx : (s.modIoc f).vnx = s.vnx := rfl
@[simp] theorem modIoc_brw : (s.modIoc f).brw = s.brw := rfl
@[simp] theorem modIoc_mem : (s.modIoc f).mem = s.mem := rfl
@[simp] theorem modIoc_lan : (s.modIoc f).lan = s.lan := rfl
@[simp] theorem modIoc_spn : (s.modIoc f).spn = s.spn := rfl
@[simp] theorem modIoc_mac : (s.modIoc f).mac = s.mac := rfl
@[simp] theorem modIoc_hst : (s.modIoc f).hst = s.hst := rfl
@[simp] theorem modIoc_brk : (s.modIoc f).brk = s.brk := rfl
@[simp] theorem modIoc_fus : (s.modIoc f).fus = s.fus := rfl
@[simp] theorem modIoc_evt : (s.modIoc f).evt = s.evt := rfl
@[simp] theorem modIoc_fab : (s.modIoc f).fab = s.fab := rfl
@[simp] theorem modIoc_ram : (s.modIoc f).ram = s.ram := rfl
@[simp] theorem modIoc_latch : (s.modIoc f).latch = s.latch := rfl
@[simp] theorem modIoc_fresh : (s.modIoc f).fresh = s.fresh := rfl
end modIoc

section modDenBlk
variable (s : State) (f : DenBlk → DenBlk)
@[simp] theorem modDenBlk_pending : (s.modDenBlk f).pending = s.pending := rfl
@[simp] theorem modDenBlk_bus : (s.modDenBlk f).bus = s.bus := rfl
@[simp] theorem modDenBlk_time : (s.modDenBlk f).time = s.time := rfl
@[simp] theorem modDenBlk_tbs : (s.modDenBlk f).tbs = s.tbs := rfl
@[simp] theorem modDenBlk_clk : (s.modDenBlk f).clk = s.clk := rfl
@[simp] theorem modDenBlk_pwr : (s.modDenBlk f).pwr = s.pwr := rfl
@[simp] theorem modDenBlk_ioc : (s.modDenBlk f).ioc = s.ioc := rfl
@[simp] theorem modDenBlk_den : (s.modDenBlk f).den = f s.den := rfl
@[simp] theorem modDenBlk_bdg : (s.modDenBlk f).bdg = s.bdg := rfl
@[simp] theorem modDenBlk_vnx : (s.modDenBlk f).vnx = s.vnx := rfl
@[simp] theorem modDenBlk_brw : (s.modDenBlk f).brw = s.brw := rfl
@[simp] theorem modDenBlk_mem : (s.modDenBlk f).mem = s.mem := rfl
@[simp] theorem modDenBlk_lan : (s.modDenBlk f).lan = s.lan := rfl
@[simp] theorem modDenBlk_spn : (s.modDenBlk f).spn = s.spn := rfl
@[simp] theorem modDenBlk_mac : (s.modDenBlk f).mac = s.mac := rfl
@[simp] theorem modDenBlk_hst : (s.modDenBlk f).hst = s.hst := rfl
@[simp] theorem modDenBlk_brk : (s.modDenBlk f).brk = s.brk := rfl
@[simp] theorem modDenBlk_fus : (s.modDenBlk f).fus = s.fus := rfl
@[simp] theorem modDenBlk_evt : (s.modDenBlk f).evt = s.evt := rfl
@[simp] theorem modDenBlk_fab : (s.modDenBlk f).fab = s.fab := rfl
@[simp] theorem modDenBlk_ram : (s.modDenBlk f).ram = s.ram := rfl
@[simp] theorem modDenBlk_latch : (s.modDenBlk f).latch = s.latch := rfl
@[simp] theorem modDenBlk_fresh : (s.modDenBlk f).fresh = s.fresh := rfl
end modDenBlk

section modBdg
variable (s : State) (f : Bdg → Bdg)
@[simp] theorem modBdg_pending : (s.modBdg f).pending = s.pending := rfl
@[simp] theorem modBdg_bus : (s.modBdg f).bus = s.bus := rfl
@[simp] theorem modBdg_time : (s.modBdg f).time = s.time := rfl
@[simp] theorem modBdg_tbs : (s.modBdg f).tbs = s.tbs := rfl
@[simp] theorem modBdg_clk : (s.modBdg f).clk = s.clk := rfl
@[simp] theorem modBdg_pwr : (s.modBdg f).pwr = s.pwr := rfl
@[simp] theorem modBdg_ioc : (s.modBdg f).ioc = s.ioc := rfl
@[simp] theorem modBdg_den : (s.modBdg f).den = s.den := rfl
@[simp] theorem modBdg_bdg : (s.modBdg f).bdg = f s.bdg := rfl
@[simp] theorem modBdg_vnx : (s.modBdg f).vnx = s.vnx := rfl
@[simp] theorem modBdg_brw : (s.modBdg f).brw = s.brw := rfl
@[simp] theorem modBdg_mem : (s.modBdg f).mem = s.mem := rfl
@[simp] theorem modBdg_lan : (s.modBdg f).lan = s.lan := rfl
@[simp] theorem modBdg_spn : (s.modBdg f).spn = s.spn := rfl
@[simp] theorem modBdg_mac : (s.modBdg f).mac = s.mac := rfl
@[simp] theorem modBdg_hst : (s.modBdg f).hst = s.hst := rfl
@[simp] theorem modBdg_brk : (s.modBdg f).brk = s.brk := rfl
@[simp] theorem modBdg_fus : (s.modBdg f).fus = s.fus := rfl
@[simp] theorem modBdg_evt : (s.modBdg f).evt = s.evt := rfl
@[simp] theorem modBdg_fab : (s.modBdg f).fab = s.fab := rfl
@[simp] theorem modBdg_ram : (s.modBdg f).ram = s.ram := rfl
@[simp] theorem modBdg_latch : (s.modBdg f).latch = s.latch := rfl
@[simp] theorem modBdg_fresh : (s.modBdg f).fresh = s.fresh := rfl
end modBdg

section modVnx
variable (s : State) (f : Vnx → Vnx)
@[simp] theorem modVnx_pending : (s.modVnx f).pending = s.pending := rfl
@[simp] theorem modVnx_bus : (s.modVnx f).bus = s.bus := rfl
@[simp] theorem modVnx_time : (s.modVnx f).time = s.time := rfl
@[simp] theorem modVnx_tbs : (s.modVnx f).tbs = s.tbs := rfl
@[simp] theorem modVnx_clk : (s.modVnx f).clk = s.clk := rfl
@[simp] theorem modVnx_pwr : (s.modVnx f).pwr = s.pwr := rfl
@[simp] theorem modVnx_ioc : (s.modVnx f).ioc = s.ioc := rfl
@[simp] theorem modVnx_den : (s.modVnx f).den = s.den := rfl
@[simp] theorem modVnx_bdg : (s.modVnx f).bdg = s.bdg := rfl
@[simp] theorem modVnx_vnx : (s.modVnx f).vnx = f s.vnx := rfl
@[simp] theorem modVnx_brw : (s.modVnx f).brw = s.brw := rfl
@[simp] theorem modVnx_mem : (s.modVnx f).mem = s.mem := rfl
@[simp] theorem modVnx_lan : (s.modVnx f).lan = s.lan := rfl
@[simp] theorem modVnx_spn : (s.modVnx f).spn = s.spn := rfl
@[simp] theorem modVnx_mac : (s.modVnx f).mac = s.mac := rfl
@[simp] theorem modVnx_hst : (s.modVnx f).hst = s.hst := rfl
@[simp] theorem modVnx_brk : (s.modVnx f).brk = s.brk := rfl
@[simp] theorem modVnx_fus : (s.modVnx f).fus = s.fus := rfl
@[simp] theorem modVnx_evt : (s.modVnx f).evt = s.evt := rfl
@[simp] theorem modVnx_fab : (s.modVnx f).fab = s.fab := rfl
@[simp] theorem modVnx_ram : (s.modVnx f).ram = s.ram := rfl
@[simp] theorem modVnx_latch : (s.modVnx f).latch = s.latch := rfl
@[simp] theorem modVnx_fresh : (s.modVnx f).fresh = s.fresh := rfl
end modVnx

section modBrw
variable (s : State) (f : Brw → Brw)
@[simp] theorem modBrw_pending : (s.modBrw f).pending = s.pending := rfl
@[simp] theorem modBrw_bus : (s.modBrw f).bus = s.bus := rfl
@[simp] theorem modBrw_time : (s.modBrw f).time = s.time := rfl
@[simp] theorem modBrw_tbs : (s.modBrw f).tbs = s.tbs := rfl
@[simp] theorem modBrw_clk : (s.modBrw f).clk = s.clk := rfl
@[simp] theorem modBrw_pwr : (s.modBrw f).pwr = s.pwr := rfl
@[simp] theorem modBrw_ioc : (s.modBrw f).ioc = s.ioc := rfl
@[simp] theorem modBrw_den : (s.modBrw f).den = s.den := rfl
@[simp] theorem modBrw_bdg : (s.modBrw f).bdg = s.bdg := rfl
@[simp] theorem modBrw_vnx : (s.modBrw f).vnx = s.vnx := rfl
@[simp] theorem modBrw_brw : (s.modBrw f).brw = f s.brw := rfl
@[simp] theorem modBrw_mem : (s.modBrw f).mem = s.mem := rfl
@[simp] theorem modBrw_lan : (s.modBrw f).lan = s.lan := rfl
@[simp] theorem modBrw_spn : (s.modBrw f).spn = s.spn := rfl
@[simp] theorem modBrw_mac : (s.modBrw f).mac = s.mac := rfl
@[simp] theorem modBrw_hst : (s.modBrw f).hst = s.hst := rfl
@[simp] theorem modBrw_brk : (s.modBrw f).brk = s.brk := rfl
@[simp] theorem modBrw_fus : (s.modBrw f).fus = s.fus := rfl
@[simp] theorem modBrw_evt : (s.modBrw f).evt = s.evt := rfl
@[simp] theorem modBrw_fab : (s.modBrw f).fab = s.fab := rfl
@[simp] theorem modBrw_ram : (s.modBrw f).ram = s.ram := rfl
@[simp] theorem modBrw_latch : (s.modBrw f).latch = s.latch := rfl
@[simp] theorem modBrw_fresh : (s.modBrw f).fresh = s.fresh := rfl
end modBrw

section modMem
variable (s : State) (f : MemBlk → MemBlk)
@[simp] theorem modMem_pending : (s.modMem f).pending = s.pending := rfl
@[simp] theorem modMem_bus : (s.modMem f).bus = s.bus := rfl
@[simp] theorem modMem_time : (s.modMem f).time = s.time := rfl
@[simp] theorem modMem_tbs : (s.modMem f).tbs = s.tbs := rfl
@[simp] theorem modMem_clk : (s.modMem f).clk = s.clk := rfl
@[simp] theorem modMem_pwr : (s.modMem f).pwr = s.pwr := rfl
@[simp] theorem modMem_ioc : (s.modMem f).ioc = s.ioc := rfl
@[simp] theorem modMem_den : (s.modMem f).den = s.den := rfl
@[simp] theorem modMem_bdg : (s.modMem f).bdg = s.bdg := rfl
@[simp] theorem modMem_vnx : (s.modMem f).vnx = s.vnx := rfl
@[simp] theorem modMem_brw : (s.modMem f).brw = s.brw := rfl
@[simp] theorem modMem_mem : (s.modMem f).mem = f s.mem := rfl
@[simp] theorem modMem_lan : (s.modMem f).lan = s.lan := rfl
@[simp] theorem modMem_spn : (s.modMem f).spn = s.spn := rfl
@[simp] theorem modMem_mac : (s.modMem f).mac = s.mac := rfl
@[simp] theorem modMem_hst : (s.modMem f).hst = s.hst := rfl
@[simp] theorem modMem_brk : (s.modMem f).brk = s.brk := rfl
@[simp] theorem modMem_fus : (s.modMem f).fus = s.fus := rfl
@[simp] theorem modMem_evt : (s.modMem f).evt = s.evt := rfl
@[simp] theorem modMem_fab : (s.modMem f).fab = s.fab := rfl
@[simp] theorem modMem_ram : (s.modMem f).ram = s.ram := rfl
@[simp] theorem modMem_latch : (s.modMem f).latch = s.latch := rfl
@[simp] theorem modMem_fresh : (s.modMem f).fresh = s.fresh := rfl
end modMem

section modLan
variable (s : State) (f : Lan → Lan)
@[simp] theorem modLan_pending : (s.modLan f).pending = s.pending := rfl
@[simp] theorem modLan_bus : (s.modLan f).bus = s.bus := rfl
@[simp] theorem modLan_time : (s.modLan f).time = s.time := rfl
@[simp] theorem modLan_tbs : (s.modLan f).tbs = s.tbs := rfl
@[simp] theorem modLan_clk : (s.modLan f).clk = s.clk := rfl
@[simp] theorem modLan_pwr : (s.modLan f).pwr = s.pwr := rfl
@[simp] theorem modLan_ioc : (s.modLan f).ioc = s.ioc := rfl
@[simp] theorem modLan_den : (s.modLan f).den = s.den := rfl
@[simp] theorem modLan_bdg : (s.modLan f).bdg = s.bdg := rfl
@[simp] theorem modLan_vnx : (s.modLan f).vnx = s.vnx := rfl
@[simp] theorem modLan_brw : (s.modLan f).brw = s.brw := rfl
@[simp] theorem modLan_mem : (s.modLan f).mem = s.mem := rfl
@[simp] theorem modLan_lan : (s.modLan f).lan = f s.lan := rfl
@[simp] theorem modLan_spn : (s.modLan f).spn = s.spn := rfl
@[simp] theorem modLan_mac : (s.modLan f).mac = s.mac := rfl
@[simp] theorem modLan_hst : (s.modLan f).hst = s.hst := rfl
@[simp] theorem modLan_brk : (s.modLan f).brk = s.brk := rfl
@[simp] theorem modLan_fus : (s.modLan f).fus = s.fus := rfl
@[simp] theorem modLan_evt : (s.modLan f).evt = s.evt := rfl
@[simp] theorem modLan_fab : (s.modLan f).fab = s.fab := rfl
@[simp] theorem modLan_ram : (s.modLan f).ram = s.ram := rfl
@[simp] theorem modLan_latch : (s.modLan f).latch = s.latch := rfl
@[simp] theorem modLan_fresh : (s.modLan f).fresh = s.fresh := rfl
end modLan

section modSpn
variable (s : State) (f : Spn → Spn)
@[simp] theorem modSpn_pending : (s.modSpn f).pending = s.pending := rfl
@[simp] theorem modSpn_bus : (s.modSpn f).bus = s.bus := rfl
@[simp] theorem modSpn_time : (s.modSpn f).time = s.time := rfl
@[simp] theorem modSpn_tbs : (s.modSpn f).tbs = s.tbs := rfl
@[simp] theorem modSpn_clk : (s.modSpn f).clk = s.clk := rfl
@[simp] theorem modSpn_pwr : (s.modSpn f).pwr = s.pwr := rfl
@[simp] theorem modSpn_ioc : (s.modSpn f).ioc = s.ioc := rfl
@[simp] theorem modSpn_den : (s.modSpn f).den = s.den := rfl
@[simp] theorem modSpn_bdg : (s.modSpn f).bdg = s.bdg := rfl
@[simp] theorem modSpn_vnx : (s.modSpn f).vnx = s.vnx := rfl
@[simp] theorem modSpn_brw : (s.modSpn f).brw = s.brw := rfl
@[simp] theorem modSpn_mem : (s.modSpn f).mem = s.mem := rfl
@[simp] theorem modSpn_lan : (s.modSpn f).lan = s.lan := rfl
@[simp] theorem modSpn_spn : (s.modSpn f).spn = f s.spn := rfl
@[simp] theorem modSpn_mac : (s.modSpn f).mac = s.mac := rfl
@[simp] theorem modSpn_hst : (s.modSpn f).hst = s.hst := rfl
@[simp] theorem modSpn_brk : (s.modSpn f).brk = s.brk := rfl
@[simp] theorem modSpn_fus : (s.modSpn f).fus = s.fus := rfl
@[simp] theorem modSpn_evt : (s.modSpn f).evt = s.evt := rfl
@[simp] theorem modSpn_fab : (s.modSpn f).fab = s.fab := rfl
@[simp] theorem modSpn_ram : (s.modSpn f).ram = s.ram := rfl
@[simp] theorem modSpn_latch : (s.modSpn f).latch = s.latch := rfl
@[simp] theorem modSpn_fresh : (s.modSpn f).fresh = s.fresh := rfl
end modSpn

section modMacs
variable (s : State) (f : Tab MacSt → Tab MacSt)
@[simp] theorem modMacs_pending : (s.modMacs f).pending = s.pending := rfl
@[simp] theorem modMacs_bus : (s.modMacs f).bus = s.bus := rfl
@[simp] theorem modMacs_time : (s.modMacs f).time = s.time := rfl
@[simp] theorem modMacs_tbs : (s.modMacs f).tbs = s.tbs := rfl
@[simp] theorem modMacs_clk : (s.modMacs f).clk = s.clk := rfl
@[simp] theorem modMacs_pwr : (s.modMacs f).pwr = s.pwr := rfl
@[simp] theorem modMacs_ioc : (s.modMacs f).ioc = s.ioc := rfl
@[simp] theorem modMacs_den : (s.modMacs f).den = s.den := rfl
@[simp] theorem modMacs_bdg : (s.modMacs f).bdg = s.bdg := rfl
@[simp] theorem modMacs_vnx : (s.modMacs f).vnx = s.vnx := rfl
@[simp] theorem modMacs_brw : (s.modMacs f).brw = s.brw := rfl
@[simp] theorem modMacs_mem : (s.modMacs f).mem = s.mem := rfl
@[simp] theorem modMacs_lan : (s.modMacs f).lan = s.lan := rfl
@[simp] theorem modMacs_spn : (s.modMacs f).spn = s.spn := rfl
@[simp] theorem modMacs_mac : (s.modMacs f).mac = f s.mac := rfl
@[simp] theorem modMacs_hst : (s.modMacs f).hst = s.hst := rfl
@[simp] theorem modMacs_brk : (s.modMacs f).brk = s.brk := rfl
@[simp] theorem modMacs_fus : (s.modMacs f).fus = s.fus := rfl
@[simp] theorem modMacs_evt : (s.modMacs f).evt = s.evt := rfl
@[simp] theorem modMacs_fab : (s.modMacs f).fab = s.fab := rfl
@[simp] theorem modMacs_ram : (s.modMacs f).ram = s.ram := rfl
@[simp] theorem modMacs_latch : (s.modMacs f).latch = s.latch := rfl
@[simp] theorem modMacs_fresh : (s.modMacs f).fresh = s.fresh := rfl
end modMacs

section modHst
variable (s : State) (f : Hst → Hst)
@[simp] theorem modHst_pending : (s.modHst f).pending = s.pending := rfl
@[simp] theorem modHst_bus : (s.modHst f).bus = s.bus := rfl
@[simp] theorem modHst_time : (s.modHst f).time = s.time := rfl
@[simp] theorem modHst_tbs : (s.modHst f).tbs = s.tbs := rfl
@[simp] theorem modHst_clk : (s.modHst f).clk = s.clk := rfl
@[simp] theorem modHst_pwr : (s.modHst f).pwr = s.pwr := rfl
@[simp] theorem modHst_ioc : (s.modHst f).ioc = s.ioc := rfl
@[simp] theorem modHst_den : (s.modHst f).den = s.den := rfl
@[simp] theorem modHst_bdg : (s.modHst f).bdg = s.bdg := rfl
@[simp] theorem modHst_vnx : (s.modHst f).vnx = s.vnx := rfl
@[simp] theorem modHst_brw : (s.modHst f).brw = s.brw := rfl
@[simp] theorem modHst_mem : (s.modHst f).mem = s.mem := rfl
@[simp] theorem modHst_lan : (s.modHst f).lan = s.lan := rfl
@[simp] theorem modHst_spn : (s.modHst f).spn = s.spn := rfl
@[simp] theorem modHst_mac : (s.modHst f).mac = s.mac := rfl
@[simp] theorem modHst_hst : (s.modHst f).hst = f s.hst := rfl
@[simp] theorem modHst_brk : (s.modHst f).brk = s.brk := rfl
@[simp] theorem modHst_fus : (s.modHst f).fus = s.fus := rfl
@[simp] theorem modHst_evt : (s.modHst f).evt = s.evt := rfl
@[simp] theorem modHst_fab : (s.modHst f).fab = s.fab := rfl
@[simp] theorem modHst_ram : (s.modHst f).ram = s.ram := rfl
@[simp] theorem modHst_latch : (s.modHst f).latch = s.latch := rfl
@[simp] theorem modHst_fresh : (s.modHst f).fresh = s.fresh := rfl
end modHst

section modBrk
variable (s : State) (f : Brk → Brk)
@[simp] theorem modBrk_pending : (s.modBrk f).pending = s.pending := rfl
@[simp] theorem modBrk_bus : (s.modBrk f).bus = s.bus := rfl
@[simp] theorem modBrk_time : (s.modBrk f).time = s.time := rfl
@[simp] theorem modBrk_tbs : (s.modBrk f).tbs = s.tbs := rfl
@[simp] theorem modBrk_clk : (s.modBrk f).clk = s.clk := rfl
@[simp] theorem modBrk_pwr : (s.modBrk f).pwr = s.pwr := rfl
@[simp] theorem modBrk_ioc : (s.modBrk f).ioc = s.ioc := rfl
@[simp] theorem modBrk_den : (s.modBrk f).den = s.den := rfl
@[simp] theorem modBrk_bdg : (s.modBrk f).bdg = s.bdg := rfl
@[simp] theorem modBrk_vnx : (s.modBrk f).vnx = s.vnx := rfl
@[simp] theorem modBrk_brw : (s.modBrk f).brw = s.brw := rfl
@[simp] theorem modBrk_mem : (s.modBrk f).mem = s.mem := rfl
@[simp] theorem modBrk_lan : (s.modBrk f).lan = s.lan := rfl
@[simp] theorem modBrk_spn : (s.modBrk f).spn = s.spn := rfl
@[simp] theorem modBrk_mac : (s.modBrk f).mac = s.mac := rfl
@[simp] theorem modBrk_hst : (s.modBrk f).hst = s.hst := rfl
@[simp] theorem modBrk_brk : (s.modBrk f).brk = f s.brk := rfl
@[simp] theorem modBrk_fus : (s.modBrk f).fus = s.fus := rfl
@[simp] theorem modBrk_evt : (s.modBrk f).evt = s.evt := rfl
@[simp] theorem modBrk_fab : (s.modBrk f).fab = s.fab := rfl
@[simp] theorem modBrk_ram : (s.modBrk f).ram = s.ram := rfl
@[simp] theorem modBrk_latch : (s.modBrk f).latch = s.latch := rfl
@[simp] theorem modBrk_fresh : (s.modBrk f).fresh = s.fresh := rfl
end modBrk

section modFus
variable (s : State) (f : Fus → Fus)
@[simp] theorem modFus_pending : (s.modFus f).pending = s.pending := rfl
@[simp] theorem modFus_bus : (s.modFus f).bus = s.bus := rfl
@[simp] theorem modFus_time : (s.modFus f).time = s.time := rfl
@[simp] theorem modFus_tbs : (s.modFus f).tbs = s.tbs := rfl
@[simp] theorem modFus_clk : (s.modFus f).clk = s.clk := rfl
@[simp] theorem modFus_pwr : (s.modFus f).pwr = s.pwr := rfl
@[simp] theorem modFus_ioc : (s.modFus f).ioc = s.ioc := rfl
@[simp] theorem modFus_den : (s.modFus f).den = s.den := rfl
@[simp] theorem modFus_bdg : (s.modFus f).bdg = s.bdg := rfl
@[simp] theorem modFus_vnx : (s.modFus f).vnx = s.vnx := rfl
@[simp] theorem modFus_brw : (s.modFus f).brw = s.brw := rfl
@[simp] theorem modFus_mem : (s.modFus f).mem = s.mem := rfl
@[simp] theorem modFus_lan : (s.modFus f).lan = s.lan := rfl
@[simp] theorem modFus_spn : (s.modFus f).spn = s.spn := rfl
@[simp] theorem modFus_mac : (s.modFus f).mac = s.mac := rfl
@[simp] theorem modFus_hst : (s.modFus f).hst = s.hst := rfl
@[simp] theorem modFus_brk : (s.modFus f).brk = s.brk := rfl
@[simp] theorem modFus_fus : (s.modFus f).fus = f s.fus := rfl
@[simp] theorem modFus_evt : (s.modFus f).evt = s.evt := rfl
@[simp] theorem modFus_fab : (s.modFus f).fab = s.fab := rfl
@[simp] theorem modFus_ram : (s.modFus f).ram = s.ram := rfl
@[simp] theorem modFus_latch : (s.modFus f).latch = s.latch := rfl
@[simp] theorem modFus_fresh : (s.modFus f).fresh = s.fresh := rfl
end modFus

section modEvt
variable (s : State) (f : Evt → Evt)
@[simp] theorem modEvt_pending : (s.modEvt f).pending = s.pending := rfl
@[simp] theorem modEvt_bus : (s.modEvt f).bus = s.bus := rfl
@[simp] theorem modEvt_time : (s.modEvt f).time = s.time := rfl
@[simp] theorem modEvt_tbs : (s.modEvt f).tbs = s.tbs := rfl
@[simp] theorem modEvt_clk : (s.modEvt f).clk = s.clk := rfl
@[simp] theorem modEvt_pwr : (s.modEvt f).pwr = s.pwr := rfl
@[simp] theorem modEvt_ioc : (s.modEvt f).ioc = s.ioc := rfl
@[simp] theorem modEvt_den : (s.modEvt f).den = s.den := rfl
@[simp] theorem modEvt_bdg : (s.modEvt f).bdg = s.bdg := rfl
@[simp] theorem modEvt_vnx : (s.modEvt f).vnx = s.vnx := rfl
@[simp] theorem modEvt_brw : (s.modEvt f).brw = s.brw := rfl
@[simp] theorem modEvt_mem : (s.modEvt f).mem = s.mem := rfl
@[simp] theorem modEvt_lan : (s.modEvt f).lan = s.lan := rfl
@[simp] theorem modEvt_spn : (s.modEvt f).spn = s.spn := rfl
@[simp] theorem modEvt_mac : (s.modEvt f).mac = s.mac := rfl
@[simp] theorem modEvt_hst : (s.modEvt f).hst = s.hst := rfl
@[simp] theorem modEvt_brk : (s.modEvt f).brk = s.brk := rfl
@[simp] theorem modEvt_fus : (s.modEvt f).fus = s.fus := rfl
@[simp] theorem modEvt_evt : (s.modEvt f).evt = f s.evt := rfl
@[simp] theorem modEvt_fab : (s.modEvt f).fab = s.fab := rfl
@[simp] theorem modEvt_ram : (s.modEvt f).ram = s.ram := rfl
@[simp] theorem modEvt_latch : (s.modEvt f).latch = s.latch := rfl
@[simp] theorem modEvt_fresh : (s.modEvt f).fresh = s.fresh := rfl
end modEvt

section modFab
variable (s : State) (f : Fab → Fab)
@[simp] theorem modFab_pending : (s.modFab f).pending = s.pending := rfl
@[simp] theorem modFab_bus : (s.modFab f).bus = s.bus := rfl
@[simp] theorem modFab_time : (s.modFab f).time = s.time := rfl
@[simp] theorem modFab_tbs : (s.modFab f).tbs = s.tbs := rfl
@[simp] theorem modFab_clk : (s.modFab f).clk = s.clk := rfl
@[simp] theorem modFab_pwr : (s.modFab f).pwr = s.pwr := rfl
@[simp] theorem modFab_ioc : (s.modFab f).ioc = s.ioc := rfl
@[simp] theorem modFab_den : (s.modFab f).den = s.den := rfl
@[simp] theorem modFab_bdg : (s.modFab f).bdg = s.bdg := rfl
@[simp] theorem modFab_vnx : (s.modFab f).vnx = s.vnx := rfl
@[simp] theorem modFab_brw : (s.modFab f).brw = s.brw := rfl
@[simp] theorem modFab_mem : (s.modFab f).mem = s.mem := rfl
@[simp] theorem modFab_lan : (s.modFab f).lan = s.lan := rfl
@[simp] theorem modFab_spn : (s.modFab f).spn = s.spn := rfl
@[simp] theorem modFab_mac : (s.modFab f).mac = s.mac := rfl
@[simp] theorem modFab_hst : (s.modFab f).hst = s.hst := rfl
@[simp] theorem modFab_brk : (s.modFab f).brk = s.brk := rfl
@[simp] theorem modFab_fus : (s.modFab f).fus = s.fus := rfl
@[simp] theorem modFab_evt : (s.modFab f).evt = s.evt := rfl
@[simp] theorem modFab_fab : (s.modFab f).fab = f s.fab := rfl
@[simp] theorem modFab_ram : (s.modFab f).ram = s.ram := rfl
@[simp] theorem modFab_latch : (s.modFab f).latch = s.latch := rfl
@[simp] theorem modFab_fresh : (s.modFab f).fresh = s.fresh := rfl
end modFab

section modRam
variable (s : State) (f : Memory → Memory)
@[simp] theorem modRam_pending : (s.modRam f).pending = s.pending := rfl
@[simp] theorem modRam_bus : (s.modRam f).bus = s.bus := rfl
@[simp] theorem modRam_time : (s.modRam f).time = s.time := rfl
@[simp] theorem modRam_tbs : (s.modRam f).tbs = s.tbs := rfl
@[simp] theorem modRam_clk : (s.modRam f).clk = s.clk := rfl
@[simp] theorem modRam_pwr : (s.modRam f).pwr = s.pwr := rfl
@[simp] theorem modRam_ioc : (s.modRam f).ioc = s.ioc := rfl
@[simp] theorem modRam_den : (s.modRam f).den = s.den := rfl
@[simp] theorem modRam_bdg : (s.modRam f).bdg = s.bdg := rfl
@[simp] theorem modRam_vnx : (s.modRam f).vnx = s.vnx := rfl
@[simp] theorem modRam_brw : (s.modRam f).brw = s.brw := rfl
@[simp] theorem modRam_mem : (s.modRam f).mem = s.mem := rfl
@[simp] theorem modRam_lan : (s.modRam f).lan = s.lan := rfl
@[simp] theorem modRam_spn : (s.modRam f).spn = s.spn := rfl
@[simp] theorem modRam_mac : (s.modRam f).mac = s.mac := rfl
@[simp] theorem modRam_hst : (s.modRam f).hst = s.hst := rfl
@[simp] theorem modRam_brk : (s.modRam f).brk = s.brk := rfl
@[simp] theorem modRam_fus : (s.modRam f).fus = s.fus := rfl
@[simp] theorem modRam_evt : (s.modRam f).evt = s.evt := rfl
@[simp] theorem modRam_fab : (s.modRam f).fab = s.fab := rfl
@[simp] theorem modRam_ram : (s.modRam f).ram = f s.ram := rfl
@[simp] theorem modRam_latch : (s.modRam f).latch = s.latch := rfl
@[simp] theorem modRam_fresh : (s.modRam f).fresh = s.fresh := rfl
end modRam

section setLatch
variable (s : State) (t : Tab Word)
@[simp] theorem setLatch_pending : (s.setLatch t).pending = s.pending := rfl
@[simp] theorem setLatch_bus : (s.setLatch t).bus = s.bus := rfl
@[simp] theorem setLatch_time : (s.setLatch t).time = s.time := rfl
@[simp] theorem setLatch_tbs : (s.setLatch t).tbs = s.tbs := rfl
@[simp] theorem setLatch_clk : (s.setLatch t).clk = s.clk := rfl
@[simp] theorem setLatch_pwr : (s.setLatch t).pwr = s.pwr := rfl
@[simp] theorem setLatch_ioc : (s.setLatch t).ioc = s.ioc := rfl
@[simp] theorem setLatch_den : (s.setLatch t).den = s.den := rfl
@[simp] theorem setLatch_bdg : (s.setLatch t).bdg = s.bdg := rfl
@[simp] theorem setLatch_vnx : (s.setLatch t).vnx = s.vnx := rfl
@[simp] theorem setLatch_brw : (s.setLatch t).brw = s.brw := rfl
@[simp] theorem setLatch_mem : (s.setLatch t).mem = s.mem := rfl
@[simp] theorem setLatch_lan : (s.setLatch t).lan = s.lan := rfl
@[simp] theorem setLatch_spn : (s.setLatch t).spn = s.spn := rfl
@[simp] theorem setLatch_mac : (s.setLatch t).mac = s.mac := rfl
@[simp] theorem setLatch_hst : (s.setLatch t).hst = s.hst := rfl
@[simp] theorem setLatch_brk : (s.setLatch t).brk = s.brk := rfl
@[simp] theorem setLatch_fus : (s.setLatch t).fus = s.fus := rfl
@[simp] theorem setLatch_evt : (s.setLatch t).evt = s.evt := rfl
@[simp] theorem setLatch_fab : (s.setLatch t).fab = s.fab := rfl
@[simp] theorem setLatch_ram : (s.setLatch t).ram = s.ram := rfl
@[simp] theorem setLatch_latch : (s.setLatch t).latch = t := rfl
@[simp] theorem setLatch_fresh : (s.setLatch t).fresh = s.fresh := rfl
end setLatch

section setBus
variable (s : State) (a : Answer)
@[simp] theorem setBus_pending : (s.setBus a).pending = s.pending := rfl
@[simp] theorem setBus_bus : (s.setBus a).bus = a := rfl
@[simp] theorem setBus_time : (s.setBus a).time = s.time := rfl
@[simp] theorem setBus_tbs : (s.setBus a).tbs = s.tbs := rfl
@[simp] theorem setBus_clk : (s.setBus a).clk = s.clk := rfl
@[simp] theorem setBus_pwr : (s.setBus a).pwr = s.pwr := rfl
@[simp] theorem setBus_ioc : (s.setBus a).ioc = s.ioc := rfl
@[simp] theorem setBus_den : (s.setBus a).den = s.den := rfl
@[simp] theorem setBus_bdg : (s.setBus a).bdg = s.bdg := rfl
@[simp] theorem setBus_vnx : (s.setBus a).vnx = s.vnx := rfl
@[simp] theorem setBus_brw : (s.setBus a).brw = s.brw := rfl
@[simp] theorem setBus_mem : (s.setBus a).mem = s.mem := rfl
@[simp] theorem setBus_lan : (s.setBus a).lan = s.lan := rfl
@[simp] theorem setBus_spn : (s.setBus a).spn = s.spn := rfl
@[simp] theorem setBus_mac : (s.setBus a).mac = s.mac := rfl
@[simp] theorem setBus_hst : (s.setBus a).hst = s.hst := rfl
@[simp] theorem setBus_brk : (s.setBus a).brk = s.brk := rfl
@[simp] theorem setBus_fus : (s.setBus a).fus = s.fus := rfl
@[simp] theorem setBus_evt : (s.setBus a).evt = s.evt := rfl
@[simp] theorem setBus_fab : (s.setBus a).fab = s.fab := rfl
@[simp] theorem setBus_ram : (s.setBus a).ram = s.ram := rfl
@[simp] theorem setBus_latch : (s.setBus a).latch = s.latch := rfl
@[simp] theorem setBus_fresh : (s.setBus a).fresh = s.fresh := rfl
end setBus

section setFresh
variable (s : State) (n : Nat)
@[simp] theorem setFresh_pending : (s.setFresh n).pending = s.pending := rfl
@[simp] theorem setFresh_bus : (s.setFresh n).bus = s.bus := rfl
@[simp] theorem setFresh_time : (s.setFresh n).time = s.time := rfl
@[simp] theorem setFresh_tbs : (s.setFresh n).tbs = s.tbs := rfl
@[simp] theorem setFresh_clk : (s.setFresh n).clk = s.clk := rfl
@[simp] theorem setFresh_pwr : (s.setFresh n).pwr = s.pwr := rfl
@[simp] theorem setFresh_ioc : (s.setFresh n).ioc = s.ioc := rfl
@[simp] theorem setFresh_den : (s.setFresh n).den = s.den := rfl
@[simp] theorem setFresh_bdg : (s.setFresh n).bdg = s.bdg := rfl
@[simp] theorem setFresh_vnx : (s.setFresh n).vnx = s.vnx := rfl
@[simp] theorem setFresh_brw : (s.setFresh n).brw = s.brw := rfl
@[simp] theorem setFresh_mem : (s.setFresh n).mem = s.mem := rfl
@[simp] theorem setFresh_lan : (s.setFresh n).lan = s.lan := rfl
@[simp] theorem setFresh_spn : (s.setFresh n).spn = s.spn := rfl
@[simp] theorem setFresh_mac : (s.setFresh n).mac = s.mac := rfl
@[simp] theorem setFresh_hst : (s.setFresh n).hst = s.hst := rfl
@[simp] theorem setFresh_brk : (s.setFresh n).brk = s.brk := rfl
@[simp] theorem setFresh_fus : (s.setFresh n).fus = s.fus := rfl
@[simp] theorem setFresh_evt : (s.setFresh n).evt = s.evt := rfl
@[simp] theorem setFresh_fab : (s.setFresh n).fab = s.fab := rfl
@[simp] theorem setFresh_ram : (s.setFresh n).ram = s.ram := rfl
@[simp] theorem setFresh_latch : (s.setFresh n).latch = s.latch := rfl
@[simp] theorem setFresh_fresh : (s.setFresh n).fresh = n := rfl
end setFresh

section setPending
variable (s : State) (l : List Instr)
@[simp] theorem setPending_pending : (s.setPending l).pending = l := rfl
@[simp] theorem setPending_bus : (s.setPending l).bus = s.bus := rfl
@[simp] theorem setPending_time : (s.setPending l).time = s.time := rfl
@[simp] theorem setPending_tbs : (s.setPending l).tbs = s.tbs := rfl
@[simp] theorem setPending_clk : (s.setPending l).clk = s.clk := rfl
@[simp] theorem setPending_pwr : (s.setPending l).pwr = s.pwr := rfl
@[simp] theorem setPending_ioc : (s.setPending l).ioc = s.ioc := rfl
@[simp] theorem setPending_den : (s.setPending l).den = s.den := rfl
@[simp] theorem setPending_bdg : (s.setPending l).bdg = s.bdg := rfl
@[simp] theorem setPending_vnx : (s.setPending l).vnx = s.vnx := rfl
@[simp] theorem setPending_brw : (s.setPending l).brw = s.brw := rfl
@[simp] theorem setPending_mem : (s.setPending l).mem = s.mem := rfl
@[simp] theorem setPending_lan : (s.setPending l).lan = s.lan := rfl
@[simp] theorem setPending_spn : (s.setPending l).spn = s.spn := rfl
@[simp] theorem setPending_mac : (s.setPending l).mac = s.mac := rfl
@[simp] theorem setPending_hst : (s.setPending l).hst = s.hst := rfl
@[simp] theorem setPending_brk : (s.setPending l).brk = s.brk := rfl
@[simp] theorem setPending_fus : (s.setPending l).fus = s.fus := rfl
@[simp] theorem setPending_evt : (s.setPending l).evt = s.evt := rfl
@[simp] theorem setPending_fab : (s.setPending l).fab = s.fab := rfl
@[simp] theorem setPending_ram : (s.setPending l).ram = s.ram := rfl
@[simp] theorem setPending_latch : (s.setPending l).latch = s.latch := rfl
@[simp] theorem setPending_fresh : (s.setPending l).fresh = s.fresh := rfl
end setPending

end Sys2Proof.Machine.State
end

