-- ==== Sys2Proof/Machine/Package.lean ====
section
/-! DEFINITION. The package of chapter 17 (R416 to R422): the name of every ball and what it carries, tied to the pins, lanes and
channels of the other chapters; and the rails' limits (R402, R403, R405). No command acts on them. -/

namespace Sys2Proof.Machine

/-! ## Ball names (R416) -/

/-- The letters of row names. -/
def rowLetters : List String := ["A", "B", "C", "D", "E", "F", "G", "H", "J", "K", "L", "M", "N", "P", "T", "U", "V", "W", "Y"]

/-- The name of row i. -/
def rowName (i : Nat) : String :=
  (if i < 19 then "" else if i < 38 then "A" else "B") ++ rowLetters.getD (i % 19) ""

/-- The name of the ball in row i and column c. -/
def ballName (i c : Nat) : String := rowName i ++ toString c

/-! ## What a ball carries -/

/-- The supply of a ball. -/
inductive Supply where
  | core | sram | aux | aon | vccoHp (bank : Nat) | vccoHd (bank : Nat) | ddr | avcc | avtt | gnd
deriving DecidableEq, Repr

/-- A signal of a DDR channel's subchannel (0 A, 1 B). -/
inductive DdrSignal where
  | dq (n : Nat) | dqsP (n : Nat) | dqsN (n : Nat) | ca (n : Nat) | cs (n : Nat) | ckP | ckN | dpar | resetN | alertN
deriving DecidableEq, Repr

/-- A leg of a lane. -/
inductive LaneLeg where
  | txP | txN | rxP | rxN
deriving DecidableEq, Repr

inductive Ball where
  | power (s : Supply)
  | lane (n : Nat) (leg : LaneLeg)
  | host (n : Nat) (leg : LaneLeg)
  /-- User pin, among the 784 (HP0 pin 0 to HD3 pin 39). -/
  | pin (n : Nat)
  | ddr (channel sub : Nat) (s : DdrSignal)
  /-- Control, flash, clocks, diode and VPP_FUSE. -/
  | control (name : String)
deriving DecidableEq, Repr

/-- The row pattern of a lane, by the distance of the column from the edge (Table 17.11). -/
def laneBall (mk : LaneLeg → Ball) (k : Nat) : Ball :=
  match k with
  | 0 => mk .txP | 1 => mk .txN | 3 => mk .rxP | 4 => mk .rxN | 6 => .power .avcc | 7 => .power .avtt | _ => .power .gnd

/-- The corner balls of rows BT to BW, from the lower column up (Table 17.12). -/
def cornerBall (i c : Nat) : Ball :=
  if 49 ≤ c then
    match i with
    | 52 => if c ≤ 52 then .power .aon else if c = 54 ∨ c = 55 then .control "VPP_FUSE" else .power .gnd
    | 53 | 54 => .power .aux
    | _ => .power .gnd
  else
    let names : List String :=
      match i with
      | 52 => ["REFCLK_P", "REFCLK_N", "", "SYNC_P", "SYNC_N", "", "PCIE_REFCLK_P", "PCIE_REFCLK_N"]
      | 53 => ["", "RST_DW_N", "", "AVS_CLK", "AVS_MDATA", "AVS_SDATA", "", ""]
      | 54 => ["FL_CLK", "FL_CS_N", "FL_DQS", "FL_RESET_N", "", "TDIODE_P", "TDIODE_N", ""]
      | _ => ["FL_DQ0", "FL_DQ1", "FL_DQ2", "FL_DQ3", "FL_DQ4", "FL_DQ5", "FL_DQ6", "FL_DQ7"]
    match names.getD (c - 1) "" with
    | "" => .power .gnd
    | n => .control n

/-- A ball of a DDR channel, by local row and column (Table 17.13). -/
def ddrBall (ch r c : Nat) : Ball :=
  let sub := if r ≤ 4 then 0 else 1
  if r = 0 ∨ r = 9 then .power (if c % 3 = 0 ∧ c ≤ 15 then .ddr else .gnd)
  else match (r - 1) % 4 with
    | 0 => .ddr ch sub (.dq c)
    | 1 => .ddr ch sub (.dq (20 + c))
    | 2 => .ddr ch sub (if c % 2 = 0 then .dqsP (c / 2) else .dqsN (c / 2))
    | _ =>
      .ddr ch sub
        (if c < 14 then .ca c
         else match c with
           | 14 => .cs 0 | 15 => .cs 1 | 16 => .ckP | 17 => .ckN | 18 => .dpar
           | _ => if sub = 0 then .resetN else .alertN)

/-- A cell of a bank's tile that carries no pin (Table 17.14). -/
def tilePower (hd : Bool) (r c : Nat) : Option Bool :=
  if c = 4 then some true
  else if c ≠ 5 then none
  else if hd then some (r == 2)
  else if r = 0 ∨ r = 5 then some false else none

/-- A ball of a bank's tile: the balls left are its pins, row by row. -/
def tileBall (hd : Bool) (bank r c : Nat) : Ball :=
  match tilePower hd r c with
  | some true => .power (if hd then .vccoHd bank else .vccoHp bank)
  | some false => .power .gnd
  | none =>
    let before := (List.range (10 * r + c)).filter fun k => (tilePower hd (k / 10) (k % 10)).isNone
    .pin ((if hd then 624 + 40 * bank else 52 * bank) + before.length)

/-- What the ball in row i and column c carries, i from 0 and c from 1 (R417 to R422, Table 17.10). -/
def ballAt (i c : Nat) : Ball :=
  if c ≤ 8 ∨ 49 ≤ c then
    let west := decide (c ≤ 8)
    let k := if west then c - 1 else 56 - c
    if 52 ≤ i then cornerBall i c
    else if 4 ≤ i then laneBall (.lane (if west then i - 4 else i + 44)) k
    else laneBall (.host (if west then i else i + 4)) k
  else if i ≤ 9 ∨ 46 ≤ i then
    let east := decide (29 ≤ c)
    let ch := (if i ≤ 9 then 0 else 2) + east.toNat
    ddrBall ch (if i ≤ 9 then i else 55 - i) (if east then c - 29 else c - 9)
  else if c ≤ 18 ∨ 39 ≤ c then
    let east := decide (39 ≤ c)
    tileBall false (6 * east.toNat + (i - 10) / 6) ((i - 10) % 6) (if east then c - 39 else c - 9)
  else if i ≤ 14 ∨ 41 ≤ i then
    let east := decide (29 ≤ c)
    tileBall true ((if i ≤ 14 then 0 else 2) + east.toNat) (if i ≤ 14 then i - 10 else i - 41) (if east then c - 29 else c - 19)
  else if (i + c) % 2 = 0 then .power .gnd
  else .power (if i = 15 ∨ i = 16 ∨ i = 39 ∨ i = 40 then .sram else .core)

/-! ## Limits -/

/-- The supplies of Tables 17.1 to 17.3. -/
inductive RailName where
  | core | sram | aux | aon | vccoHp | vccoHd | ddr | avcc | avtt | vpp
deriving DecidableEq, Repr

/-- The absolute maximum of a rail, mV (Table 17.1); every minimum is −500 mV. -/
def RailName.absMax : RailName → Nat
  | .core => 1000 | .sram | .avcc => 1050 | .aux | .aon => 2000 | .vccoHp => 2000 | .vccoHd => 3600 | .ddr => 1300
  | .avtt => 1400 | .vpp => 2750

/-- The nominal voltages of a rail, mV, and its tolerance in thousandths (Table 17.2); VCC_CORE follows the voltage commanded, to
within 20 mV. -/
def RailName.nominal : RailName → List Nat × Nat
  | .core => ([], 0) | .sram => ([900], 30) | .aux | .aon => ([1800], 50) | .vccoHp => ([1000, 1200, 1350, 1500, 1800], 50)
  | .vccoHd => ([1200, 1500, 1800, 2500, 3300], 50) | .ddr => ([1100], 30) | .avcc => ([900], 20) | .avtt => ([1200], 30)
  | .vpp => ([2500], 50)

/-- A rail stands within its recommended range at a voltage in µV, for a commanded VCC_CORE in mV (R403); VPP_FUSE while fuses
are programmed. -/
def RailName.within (r : RailName) (commanded uv : Nat) : Bool :=
  match r with
  | .core => decide (1000 * commanded ≤ uv + 20000) && decide (uv ≤ 1000 * commanded + 20000)
  | r => r.nominal.1.any fun v => decide ((1000 - r.nominal.2) * v ≤ uv) && decide (uv ≤ (1000 + r.nominal.2) * v)

/-- The largest current of a rail, mA (Table 17.3); of VCCO, that of one bank. -/
def RailName.maxMa : RailName → Nat
  | .core => 170000 | .sram => 12000 | .aux => 3000 | .aon => 100 | .vccoHp | .vccoHd => 1200 | .ddr => 10000 | .avcc => 20000
  | .avtt => 6000 | .vpp => 200

/-! ## Power (R414) -/

/-- The static power of VCC_CORE and VCC_SRAM at a Tj of 100 °C, mW (Table 17.8). -/
def staticMw (op : BitVec 2) : Nat := match op.toNat with | 0 => 18000 | 1 => 22000 | 2 => 27000 | _ => 33000

/-- A dynamic term on VCC_CORE, µW: its power at full utilisation, scaled by the used fraction in thousandths and by the square of
the voltage commanded, in mV, over 850 mV (R414). -/
def coreTermUw (full used mv : Nat) : Nat := full * used * mv ^ 2 / (1000 * 850 ^ 2)

end Sys2Proof.Machine
end

