-- ==== Sys2Proof/Tests/Slice0.lean ====
section
/-! SUPPORT. Tests: small states on which the hypotheses of the obligations hold, ill-formed commands that the check of
WellFormed refuses, and single steps against values worked out from the manual by hand. -/

namespace Sys2Proof.Tests

open Sys2Proof Sys2Proof.Machine

/-- A device in RUN with system time started and every source good; the Burrow's bucket does not leak. -/
def runState : State :=
  { State.reset with
    pwr := { mode := .run, prev := .release }
    time := { sysOn := true }
    clk := { good := 0xFFFFFFFFFFFFFFFF, fabRows := 15 }
    brw := { leak := 0 } }

/-- What a command leaves, or the state after reset where it gives none. -/
def after (c : Instr) (s : State) : State := match exec c s with | .next t => t | _ => State.reset

/-! ## Chapter 1 -/

/-- One timed action, armed for system time 0x27FF / 256 ns. -/
def dueSoon (cls : BitVec 3) : ActEntry := { state := .armed, used := true, cls := cls, due := .time 0x27FF }

/-- Master 16 holds the staging lock; entry 3 is armed for later, 4 for soon, and 5 waits. -/
def lockState : State :=
  { runState with
    tbs := { lock := some 16
             table := { cells := [(3, { dueSoon 1 with due := .time 0x100000 }), (4, dueSoon 1), (5, { dueSoon 1 with state := .waiting })] } } }

def armWith (w0 : Word) : State := { runState with tbs := { lock := some 16, w0 := w0, w2 := 1000 } }
def armState : State := armWith 1
def armFull : State :=
  { armState with tbs := { armState.tbs with table := { cells := (List.range 256).map fun i => (i, dueSoon 1) } } }
def armPeriod : State := { armWith 5 with tbs := { (armWith 5).tbs with w1 := 500, role := 2 } }

def withActions (l : List (Nat × ActEntry)) : State := { runState with tbs := { table := { cells := l } } }
def oneAction : State := withActions [(4, dueSoon 1)]
def twoActions : State := withActions [(4, dueSoon 1), (9, dueSoon 1)]
def trigOne : State := { withActions [(4, dueSoon 0)] with pwr := { mode := .sleep } }
def deepOne : State := { oneAction with pwr := { mode := .deep } }

def holdState : State := { runState with tbs := { holdQ := [{ time := 0, dev := 0, count := 2, indef := false }] } }
def leftState : State := { runState with tbs := { holdLeft := 1 } }
def overState : State := { runState with tbs := { checkOn := true, doneMask := BitVec.ofNat 50 (4 + 2 ^ 49) } }
def lateState : State := { runState with time := { sysOn := true, sys := 256 * 9998, now := 50 }, tbs := { doneMask := BitVec.ofNat 50 (2 ^ 48) } }
def heldState : State := { runState with tbs := { heldHold := some 3 } }
def electState : State :=
  { runState with pwr := { mode := .lock }, tbs := { electAt := some 10000000, noMaster := some 5 } }
def followState : State := { runState with tbs := { role := 2 } }
def goneDens : State := { runState with den := { dens := { cells := [(2, { isolated := true }), (3, { freeze := some (.switching, 20) })] } } }

theorem test_wit_StagingLock : runState.admitsRead 17 0x80 = true ∧ runState.lockHolder = none ∧
    lockState.admitsRead 17 0x80 = true ∧ lockState.lockHolder = some 16 ∧
    (∀ w : Fin 4, lockState.admitsWrite 17 (BitVec.ofNat 48 (0x84 + 4 * w.val)) = true) ∧ lockState.admitsWrite 17 0x94 = true ∧
    lockState.lockHolder ≠ some 17 ∧ lockState.admitsWrite 16 0x84 = true ∧ lockState.admitsWrite 16 0x88 = true ∧
    lockState.admitsWrite 16 0x8C = true ∧ lockState.admitsWrite 16 0x90 = true ∧ lockState.admitsWrite 16 0x94 = true ∧
    runState.tbs.lockAt + 10000 ≤ (runState.advance 10000).now ∧ lockState.tbs.lock.isSome = true := by decide

theorem test_wit_ArmStores_1 : armState.admitsWrite 16 0x94 = true ∧ armState.lockHolder = some 16 ∧ (armState.actAt 0).state = .free ∧
    armState.tbs.staged.cls.toNat < 6 ∧ armState.tbs.staged.inRange = true ∧ armState.tbs.staged.cls ≠ 5 ∧
    armState.isPast armState.tbs.staged = false := by decide
theorem test_wit_ArmStores_2 : (armFull.admitsWrite 16 0x94 = true ∧ armFull.lockHolder = some 16) ∧
    (∀ j < 256, (armFull.actAt j).state ≠ .free) ∧ armFull.tbs.staged.cls.toNat < 6 ∧ armFull.tbs.staged.inRange = true ∧
    armFull.tbs.staged.cls ≠ 5 ∧ armFull.isPast armFull.tbs.staged = false := by decide +kernel
theorem test_wit_ArmStores_3 : (armWith 6).admitsWrite 16 0x94 = true ∧ (armWith 6).lockHolder = some 16 ∧
    6 ≤ (armWith 6).tbs.staged.cls.toNat ∧ (armWith 0x18).tbs.staged.cls.toNat < 6 ∧ (armWith 0x18).tbs.staged.inRange = false ∧
    (armPeriod.tbs.staged.cls = 5 ∧ armPeriod.tbs.staged.inRange = true ∧ armPeriod.follower = true ∧
      armPeriod.admitsWrite 16 0x94 = true ∧ armPeriod.lockHolder = some 16) := by decide

theorem test_wit_CancelAndQuery : lockState.admitsWrite 16 0x94 = true ∧ lockState.lockHolder = some 16 ∧
    (lockState.actAt 3).gen = 0 ∧ (lockState.actAt 3).state = .armed ∧ lockState.dueAt (lockState.actAt 3).due = some 0x100000 ∧
    lockState.time.sys.toNat + 40 * 256 ≤ 0x100000 ∧ (lockState.actAt 4).state = .armed ∧
    lockState.dueAt (lockState.actAt 4).due = some 0x27FF ∧ 0x27FF < lockState.time.sys.toNat + 40 * 256 ∧
    (lockState.actAt 5).state = .waiting ∧ (lockState.actAt 6).state = .free := by decide

theorem test_wit_TimedActionRuns_1 : oneAction.mode = .run ∧ oneAction.time.runs = true ∧ Tab.wf {} oneAction.tbs.table = true ∧
    0x27FF < 256 * oneAction.tbs.nextEdge.toNat ∧ (oneAction.actAt 4).state = .armed ∧ (oneAction.actAt 4).cls = 1 ∧
    (oneAction.actAt 4).due = .time 0x27FF ∧ (∀ j < 256, j ≠ 4 → (oneAction.actAt j).state ≠ .armed) := by decide +kernel
theorem test_wit_TimedActionRuns_2 : trigOne.mode = .sleep ∧ trigOne.time.runs = true ∧ Tab.wf {} trigOne.tbs.table = true ∧
    0x27FF < 256 * trigOne.tbs.nextEdge.toNat ∧ (trigOne.actAt 4).state = .armed ∧ (trigOne.actAt 4).cls = 0 ∧
    (trigOne.actAt 4).due = .time 0x27FF ∧ (∀ j < 256, j ≠ 4 → (trigOne.actAt j).state ≠ .armed) := by decide +kernel
theorem test_wit_TimedActionRuns_3 : deepOne.mode ≠ .run ∧ deepOne.mode ≠ .sleep ∧ deepOne.time.runs = true ∧
    Tab.wf {} deepOne.tbs.table = true ∧ 0x27FF < 256 * deepOne.tbs.nextEdge.toNat ∧ (deepOne.actAt 4).state = .armed ∧
    (deepOne.actAt 4).cls = 1 ∧ (deepOne.actAt 4).due = .time 0x27FF ∧ (∀ j < 256, j ≠ 4 → (deepOne.actAt j).state ≠ .armed) := by
  decide +kernel
theorem test_wit_TimedActionRuns_4 : twoActions.mode = .run ∧ twoActions.time.runs = true ∧ Tab.wf {} twoActions.tbs.table = true ∧
    0x27FF < 256 * twoActions.tbs.nextEdge.toNat ∧ (∀ k < 256, k ≠ 4 → k ≠ 9 → (twoActions.actAt k).state ≠ .armed) ∧
    ∀ k ∈ [4, 9], (twoActions.actAt k).state = .armed ∧ (twoActions.actAt k).cls = 1 ∧ (twoActions.actAt k).due = .time 0x27FF := by decide +kernel

theorem test_wit_TickEdges : leftState.time.runs = true ∧ leftState.tbs.holdQ = [] ∧ leftState.tbs.sched = [] ∧
    leftState.tbs.holdLeft ≠ 0 ∧ runState.tbs.holdLeft = 0 ∧ runState.tbs.holdQ = [] ∧ runState.tbs.sched = [] ∧
    leftState.tbs.indef = false := by decide
theorem test_wit_TickEdges_skip : (after .tickEdge holdState).tbs.holdActive = true ∧ holdState.time.runs = true := by decide +kernel
theorem test_wit_TickEdges_check : overState.time.runs = true ∧ overState.mode = .run ∧ overState.tbs.checkOn = true ∧
    (after .tickEdge overState).tbs.holdActive = false := by decide +kernel

theorem test_wit_TickSignals_1 : (overState.denAt 2).isolated = false ∧ (overState.denAt 2).freeze = none ∧
    overState.tbs.doneMask.getLsbD 2 = true ∧ 4 ≤ overState.nextEdgeLocal - overState.now ∧ lateState.loopDone = true ∧
    lateState.tbs.doneMask.getLsbD 48 = true ∧ lateState.nextEdgeLocal - lateState.now < 4 ∧ (goneDens.denAt 2).isolated = true ∧
    (goneDens.denAt 3).freeze ≠ none ∧ overState.admitsWrite 1 0x58 = true ∧ overState.tbs.doneMask.getLsbD 49 = true ∧
    BitVec.getLsbD (1 : Word) 0 = true ∧ overState.admitsWrite 16 0x40 = true ∧ overState.mode = .run ∧
    overState.follower = false := by decide +kernel
theorem test_wit_TickSignals_2 : (heldState.tbs.heldHold = some 3 ∧ heldState.mode = .run ∧ heldState.linksUp = true ∧
    heldState.follower = false) ∧ electState.tbs.electAt = some 10000000 ∧ electState.mode = .lock ∧ electState.tbs.elected = false ∧
    electState.tbs.imgRole = 2 ∧ electState.tbs.best = none ∧ electState.tbs.noMaster = some 5 ∧ followState.tbs.role = 2 := by decide

theorem test_wit_CsrAccess_1 : runState.admitsWrite 17 0x60 = true ∧ (1 : BitVec 12) ≠ 3 ∧ runState.admitsWrite 17 0x62 = true ∧
    0x62 % 4 ≠ 0 ∧ runState.admitsWrite 17 0x0C = true ∧ runState.csrRaw 17 0x0C = none ∧ runState.admitsRead 17 0x62 = true ∧
    runState.admitsRead 17 0x0C = true ∧ runState.on = true ∧ runState.admitsRead 17 0x11FFFFC = true ∧
    runState.csrRaw 17 0x11FFFFC = none ∧ (runState.csrRaw 17 0x60).isSome = true ∧ runState.admitsRead 17 0x60 = true := by decide
theorem test_wit_CsrAccess_2 : runState.admitsWrite 16 0x0 = true ∧ runState.admitsWrite 16 0x200038 = true ∧
    runState.admitsWrite 16 0x60 = true ∧ runState.admitsRead 16 0x68 = true ∧ runState.admitsRead 16 0x1000010 = true ∧
    runState.admitsRead 16 0x20006C = true ∧ runState.admitsRead 16 0x94 = true ∧ runState.admitsWrite 16 0x1000400 = true := by decide

theorem test_wit_LatchedReads : ∀ a ∈ [0x10, 0x14, 0x18, 0x20, 0x24], runState.admitsRead 16 (BitVec.ofNat 48 a) = true := by decide

/-! ## Chapters 2 to 4 -/

def pinState : State :=
  { runState with
    ioc := { trig := { cells := [(1, { pulse := some (true, 700) }), (2, { ev := some (some 800) }), (3, { stampEdge := 1, od := true })] } } }
def clkState : State := { runState with clk := { refRun := 7 } }
def clkGood : State := { runState with clk := { runState.clk with policy := 0x80, fabPlls := 0xFFFFFF } }
def noClocks : State := { runState with clk := {} }
def restartState : State := { runState with pwr := { mode := .stop, resetPending := true } }
def holdMode : State := { runState with pwr := { mode := .hold }, tbs := { aligned := true } }
def sleepState : State := { runState with pwr := { mode := .sleep }, clk := { good := 0x30 } }
def dvfs (f : AvsFrame) (p : OpPhase) : State :=
  { runState with clk := { avs := f, phase := p, volt := 750, target := 2, opFrom := 1, op := 1 } }
def rampState (n : Nat) : State := { State.reset with pwr := { mode := .ramp, switches := n } }
def lockedState : State :=
  { runState with pwr := { mode := .lock }, clk := { runState.clk with op0Done := true }, tbs := { elected := true } }
def timerState : State := { runState with pwr := { mode := .run, wakeAt := some 900, wakeEn := 0x3B } }
def stepState : State := { runState with pwr := { mode := .run, steps := [(.bankClear 5, 250)] } }
def groupState : State := { runState with pwr := { mode := .release, rel := { stage := 1, groups := 3 } } }
def capState (op : BitVec 2) : State :=
  { runState with pwr := { mode := .run, capOver := 99, capUnder := 9999, capSw := 50 }, clk := { op := op, govLimit := 1 } }

theorem test_wit_Pins : (pinState.pinAt 1).pulse = some (true, 700) ∧ (pinState.pinAt 2).ev = some (some 800) ∧ pinState.on = true ∧
    pinState.pwr.vcco.getLsbD 12 = true ∧ (pinState.pinAt 3).stampEdge.getLsbD 0 = true ∧ (pinState.pinAt 3).wakeEdge = 0 ∧
    (pinState.pinAt 1).stampEdge = 0 ∧ (pinState.pinAt 1).wakeEdge = 0 ∧ (pinState.pinAt 3).od = true ∧
    pinState.ioc.limit.getLsbD 3 = false ∧ pinState.brw.settThresh ≠ 0 ∧ pinState.brw.settUe.getLsbD 47 = false ∧
    pinState.pwr.vcco.getLsbD 15 = true ∧ 0 < railLostBelow (7 + 15) ∧ railGoodAbove (7 + 12) < 5000 := by decide

theorem test_wit_OwlJudgement : lockState.time.runs = true ∧ lockState.on = true ∧ State.reset.mode = .sense ∧ runState.mode ≠ .sense ∧
    runState.mode ≠ .stop ∧ 47 ≤ (47 : BitVec 16).toNat ∧ (56 : BitVec 16).toNat ≤ 56 ∧ (46 : BitVec 16).toNat < 47 ∧
    56 < (57 : BitVec 16).toNat ∧ 795 ≤ (795 : BitVec 16).toNat ∧ (843 : BitVec 16).toNat ≤ 843 ∧ noClocks.clk.refRun < 7 ∧
    clkState.clk.refRun = 7 ∧ clkState.clk.good.getLsbD 0 = false ∧ clkState.on = true ∧ noClocks.clk.good.getLsbD 2 = false ∧
    843 < (844 : BitVec 16).toNat ∧ clkGood.on = true ∧ clkGood.clk.good.getLsbD 0 = true ∧ clkGood.watched 0 = true := by decide

theorem test_wit_ClockFailures_1 : clkGood.on = true ∧ clkGood.clk.good.getLsbD 0 = true ∧ clkGood.pwr.chilled = false ∧ clkGood.mode = .run ∧
    clkGood.clk.good.getLsbD 6 = true ∧ clkGood.safeHold 6 = false ∧ clkGood.clk.good.getLsbD 3 = true ∧ clkGood.safeHold 3 = false ∧
    clkGood.clk.good.getLsbD 7 = true ∧ clkGood.safeHold 7 = true := by decide
theorem test_wit_ClockFailures_2 : restartState.on = true ∧ restartState.pwr.resetPending = true ∧ restartState.clk.failed = 0 ∧
    restartState.recovered restartState.clk.awaitReset = true ∧ clkGood.pwr.resetPending = false ∧ holdMode.mode = .hold ∧
    holdMode.pwr.resetPending = false ∧ holdMode.recovered holdMode.clk.awaitHold = true ∧ holdMode.tbs.aligned = true ∧
    clkGood.mode ≠ .hold ∧ clkGood.tbs.aligned = false := by decide +kernel
theorem test_wit_ClockFailures_3 : sleepState.on = true ∧ sleepState.running .noc = false ∧ sleepState.mode ≠ .deep ∧
    sleepState.domainSrc .noc = true ∧
    (sleepState.modClk fun c => { c with woken := [(.noc, 5)] }).clk.woken = [(.noc, 5)] := by decide

theorem test_wit_Dvfs : (dvfs .write .raiseWrite).on = true ∧ (dvfs .write .raiseWrite).clk.avs = .write ∧
    (dvfs .write .raiseWrite).clk.phase = .raiseWrite ∧ (dvfs .read .raiseRead).clk.avs = .read ∧
    (dvfs .read .raiseRead).clk.phase = .raiseRead ∧ (760 : BitVec 16).toNat ≤ (dvfs .read .raiseRead).clk.volt.toNat + 10 ∧
    (dvfs .read .raiseRead).clk.volt.toNat ≤ (760 : BitVec 16).toNat + 10 ∧ (dvfs .read .lowerRead).clk.phase = .lowerRead ∧
    (dvfs .read .raiseRead).clk.volt.toNat + 10 < (761 : BitVec 16).toNat ∧
    (dvfs .read .raiseRead).clk.opFrom.toNat < (dvfs .read .raiseRead).clk.target.toNat ∧ (dvfs .none .raiseRead).clk.avs = .none ∧
    (dvfs .none .settle).clk.phase = .settle ∧ (dvfs .none .settle).clk.standbyLocked = false := by decide

theorem test_wit_RailsSenseLock_1 : (runState.setMode .off).mode = .off ∧ railGoodAbove 0 < 5000 ∧ 0 < railLostBelow 0 ∧
    runState.fus.burning = none ∧ runState.evt.erasing = false ∧ runState.evt.fifo = [] ∧ railGoodAbove 22 < 5000 ∧
    railLostBelow 6 ≤ railLostBelow 6 ∧ (rampState 94).mode = .ramp ∧ (rampState 94).railsGood = true ∧
    (rampState 94).pwr.switches < 95 ∧ (rampState 95).pwr.switches = 95 ∧ (rampState 95).pwr.pinHigh = true ∧
    (rampState 95).railsGood = true ∧ 0 < railLostBelow 6 ∧ runState.on = true ∧ runState.pwr.rails.getLsbD 6 = true ∧
    runState.mode = .run ∧ (runState.modPwr fun p => { p with pinReset := true }).pwr.pinReset = true := by decide
theorem test_wit_RailsSenseLock_2 : State.reset.mode = .sense ∧ lockedState.mode = .lock ∧ lockedState.clk.good.getLsbD 0 = true ∧
    lockedState.clk.good.getLsbD 3 = true ∧ lockedState.clk.good.getLsbD 6 = true ∧ lockedState.clk.good.getLsbD 7 = true ∧
    lockedState.clk.good.getLsbD (if lockedState.clk.standbyB then 4 else 5) = true ∧ lockedState.clk.op0Done = true ∧
    lockedState.tbs.elected = true ∧ State.reset.clk.op0Done = false := by decide

theorem test_wit_WakesAndStop : runState.admitsWrite 1 0x200004 = true ∧ runState.mode = .run ∧ runState.pwr.wakeEn.getLsbD 1 = true ∧
    sleepState.mode = .sleep ∧ sleepState.pwr.wakeEn.getLsbD 5 = true ∧ sleepState.pwr.waking = none ∧ runState.on = true ∧
    runState.pwr.wakeEn.getLsbD 0 = false ∧ runState.admitsWrite 1 0x20003C = true ∧
    0 < (65535 : Word).toNat * 2 ^ 32 + runState.pwr.wakeInLo.toNat ∧ (65535 : Word).toNat < 65536 ∧ runState.pwr.wakeInLo = 0 ∧
    timerState.mode = .run ∧ timerState.pwr.wakeAt = some 900 ∧ timerState.pwr.wakeEn.getLsbD 0 = true ∧
    runState.admitsWrite 1 0x200008 = true ∧ field (0xA5C3 : Word) 0 16 = 0xA5C3 ∧ field (0xA5C2 : Word) 0 16 ≠ 0xA5C3 := by decide

theorem test_wit_StepBudgetAndCap_1 : stepState.pwr.steps = (.bankClear 5, 250) :: [] ∧ 250 ≤ stepState.pwr.tokens.toNat ∧
    stepState.pwr.tokens.toNat ≤ stepState.pwr.depth.toNat ∧ 0 < stepState.pwr.didt.toNat ∧
    runState.admitsWrite 1 0x200064 = true ∧ groupState.pwr.rel.stage = 1 ∧ 0 < groupState.pwr.rel.groups ∧
    groupState.pwr.rel.groups < 7 ∧ groupState.pwr.steps = [] ∧ groupState.stepCost (.release 1 groupState.pwr.rel.groups) ≤ groupState.pwr.tokens.toNat ∧
    groupState.pwr.tokens.toNat ≤ groupState.pwr.depth.toNat := by decide
theorem test_wit_StepBudgetAndCap_2 : runState.on = true ∧ runState.pwr.capOver < 99 ∧ runState.pwr.capUnder < 9999 ∧ (capState 2).on = true ∧
    (capState 2).pwr.capOver = 99 ∧ (capState 2).effCap ≠ 0 ∧ 10 * (capState 2).effCap < (501 : BitVec 16).toNat ∧
    (capState 2).clk.opMin.toNat < (capState 2).clk.op.toNat ∧ (capState 0).clk.op.toNat ≤ (capState 0).clk.opMin.toNat ∧
    (capState 0).pwr.capAtMin = false ∧ (capState 2).pwr.capUnder = 9999 ∧ (450 : BitVec 16).toNat ≤ 9 * (capState 2).effCap ∧
    (capState 2).clk.govLimit.toNat < (capState 2).ceiling := by decide

/-! ## Loading (chapters 3 and 15) -/

/-- Device 5, a master; ASYM_0 brings the CRC register to 0, so the zeros that follow leave it so. -/
def sysHead : List Byte := leBytes 0x1EE0105 4 ++ leBytes 20000 4 ++ List.replicate 16 0
def sysAsym : List Byte := leBytes (crc32 sysHead ^^^ 0xFFFFFFFF) 4
def sysBytes : List Byte := (sysHead ++ sysAsym) ++ (List.replicate 2016 0 ++ leBytes 0xFFFFFFFF 4)
def sysState : State :=
  { lockedState with pwr := { mode := .lock, slotTable := some { count := 2, slots := [(false, 0), (true, 0x1000)] } } }
def loadState : State := { runState with pwr := { mode := .load } }
def slotState : State := { runState with pwr := { mode := .load, slotTable := some { count := 1, slots := [(true, 0x1000)] }, trySlot := 0 } }
def verifyState : State := { runState with pwr := { mode := .verify, candidate := some [] } }
def tableBytes : List Byte :=
  let l := leBytes 0xC4A35107 4 ++ leBytes 0 2 ++ leBytes 1 2 ++ List.replicate 4 0 ++ leBytes 0x1000 4 ++ leBytes 1 4 ++ List.replicate 52 0
  l ++ leBytes (crc32 l) 4
def trainState : State :=
  { runState with pwr := { mode := .verify, checksOk := true }, mem := { ch := { cells := [(3, { cfg := 4 })] } } }
def doneVerify : State := { runState with pwr := { mode := .verify, checksOk := true }, tbs := { aligned := true } }

theorem test_wit_SystemAndVerify_1 : sysState.lockReads = true ∧ sysState.pwr.slotTable.isSome = true ∧ sysOk [] = false ∧
    sysState.pwr.sysSlot < 1 ∧ 1 < sysState.slotCount ∧ (sysState.slotAt 1).1 = true ∧
    (∀ i < 1, sysState.pwr.sysSlot < i → (sysState.slotAt i).1 = false) ∧
    (∀ j < (sysState.modPwr fun p => { p with sysSlot := 1 }).slotCount, 1 < j → (sysState.slotAt j).1 = false) := by decide
theorem crc_zeros (n : Nat) : (List.replicate n (0 : Byte)).foldl (fun c b => crc32Bit 8 (c ^^^ b.toNat)) 0 = 0 := by
  induction n with
  | zero => rfl
  | succ n ih => exact ih
/-- A head that brings the CRC register to 0, and zeros after it. -/
theorem crc_padded (h : List Byte) (n : Nat) (z : h.foldl (fun c b => crc32Bit 8 (c ^^^ b.toNat)) 0xFFFFFFFF = 0) :
    crc32 (h ++ List.replicate n 0) = 0xFFFFFFFF := by
  rw [crc32, List.foldl_append, z, crc_zeros]; rfl
theorem sysBytes_body : slice sysBytes 0 0x7FC = (sysHead ++ sysAsym) ++ List.replicate 2016 0 := by
  rw [sysBytes, ← List.append_assoc]
  exact List.take_left' (by decide +kernel)
theorem sysBytes_crc : leAt sysBytes 0x7FC 4 = 0xFFFFFFFF := by
  rw [sysBytes, ← List.append_assoc, leAt, List.drop_left' (by decide +kernel)]
  decide
theorem test_wit_SystemAndVerify_2 : sysOk sysBytes = true := by
  have h : 0x800 ≤ sysBytes.length := by decide +kernel
  have c : crc32 (slice sysBytes 0 0x7FC) = 0xFFFFFFFF := by
    rw [sysBytes_body]; exact crc_padded _ _ (by decide +kernel)
  simp [sysOk, crcAt, c, sysBytes_crc, h]
theorem test_wit_SystemAndVerify_3 : trainState.mode = .verify ∧ trainState.pwr.checksOk = true ∧ trainState.pwr.resetPending = false ∧
    trainState.populated.contains 3 = true ∧ trainState.pwr.trained.getLsbD 3 = false ∧ (trainState.chAt 3).portQ = [] ∧
    trainState.verified = false ∧ doneVerify.mode = .verify ∧ doneVerify.pwr.resetPending = false ∧ doneVerify.verified = true ∧
    doneVerify.bdg.state = .stopped := by decide

theorem test_wit_LoadSlots_1 : loadState.mode = .load ∧ loadState.pwr.resetPending = false ∧ loadState.pwr.slotTable = none ∧
    slotTableOk [] = false ∧ slotState.mode = .load ∧ slotState.pwr.slotTable.isSome = true ∧ slotState.pwr.resetPending = false ∧
    slotState.pwr.trySlot < 4 ∧ slotState.slotCount ≤ slotState.pwr.trySlot + 1 ∧ verifyState.mode = .verify ∧
    verifyState.pwr.resetPending = false ∧ verifyState.pwr.candidate = some [] ∧ verifyState.pwr.trySlot < 4 := by decide
theorem test_wit_LoadSlots_2 : (goodTable [] tableBytes).map (·.2) = some true ∧
    (goodTable [] tableBytes).map (fun x => (decide (0 < x.1.count), (x.1.slots.getD 0 (false, 0)).1)) = some (true, true) := by decide +kernel

/-! ## Dens (chapter 5) -/

def withDens (l : List (Nat × Den)) : State := { runState with den := { dens := { cells := l } } }
def denState : State := withDens [(2, { isStatic := true })]
/-- A load for den 47 from host memory, of 100 bytes. -/
def busyLoader : State :=
  { runState with den := { loadBusy := true, loadDen := 47, curSrc := 0x800000000000, curLen := 100, dens := { cells := [(47, { shadow := .loading })] } } }
/-- An image from bytes the host gives, and one whose fetch fails. -/
def gotBytes (l : List Byte) : LoadOutcome := { fetch := .ok, bytes := l, upsets := [] }
def failedFetch : LoadOutcome := { fetch := .poison, bytes := [], upsets := [] }

theorem test_wit_DenLoads_1 : denState.admitsWrite 1 0x40001C = true ∧ field (47 : Word) 0 6 < 48 ∧ (denState.denAt 47).isStatic = false ∧
    denState.den.loadBusy = false ∧ (denState.denAt 47).draining = false ∧ denState.bdg.rlBusy = false ∧ denState.bdg.rlPend = 0 ∧
    field (2 : Word) 0 6 < 48 ∧ (denState.denAt 2).isStatic = true ∧ busyLoader.admitsWrite 1 0x40001C = true ∧
    busyLoader.den.loadBusy = true ∧ (busyLoader.denAt 47).isStatic = false ∧ busyLoader.on = true := by decide
theorem test_wit_DenLoads_2 : (busyLoader.fetchImage 0x800000000000 100 (failedFetch.fetch, failedFetch.bytes)).1 ≠ .ok ∧
    (busyLoader.fetchImage 0x800000000000 100 (.ok, [])).1 = .ok ∧ busyLoader.planeHeader 47 100 [] ≠ 0 := by decide

/-- A plane image for every den, its content zeros. -/
def planeHead : List Byte :=
  leBytes planeMagic 4 ++ leBytes 1 2 ++ leBytes 0 2 ++ leBytes 1576960 4 ++ leBytes 0x96 2 ++ leBytes 0xFFFF 2 ++
    leBytes (runState.fuse 69 2) 1 ++ leBytes (runState.fuse 71 1) 1 ++ leBytes 0 6 ++ leBytes 0xFFFFFFFFFFFF 8
def planeAsym : List Byte := leBytes (crc32 planeHead ^^^ 0xFFFFFFFF) 4
def planeStart : List Byte := planeHead ++ planeAsym ++ List.replicate 2008 0 ++ leBytes 0xFFFFFFFF 4
def planeBytes : List Byte := planeStart ++ List.replicate 1574912 0
def planeLoader : State := { busyLoader with den := { busyLoader.den with curLen := 1576960 } }

theorem plane_start : planeStart.length = 2048 := by decide +kernel
theorem planeBytes_length : planeBytes.length = 1576960 := by rw [planeBytes, List.length_append, List.length_replicate, plane_start]
theorem plane_at (o n : Nat) (h : o + n ≤ 2048) : leAt planeBytes o n = leAt planeStart o n := by
  simp only [leAt, planeBytes]
  rw [List.drop_append_of_le_length (by rw [plane_start]; omega), List.take_append_of_le_length (by rw [List.length_drop, plane_start]; omega)]
theorem plane_crc : crc32 (slice planeBytes 0 0x7FC) = 0xFFFFFFFF := by
  rw [planeBytes, planeStart, List.append_assoc, slice, List.drop_zero, List.take_left' (by decide +kernel)]
  exact crc_padded _ _ (by decide +kernel)
theorem plane_header (s : State) (b : s.img.buildId = 0) (p : s.partFits planeStart = true) (g : s.gradeFits planeStart = true) (d : Fin 48) :
    s.planeHeader d 1576960 planeBytes = 0 := by
  have e : ∀ d : Fin 48, (leAt planeStart 0x18 8).testBit d = true := by decide +kernel
  have h : hdrOk planeMagic 1576960 planeBytes = true := by
    simp only [hdrOk, crcAt, plane_crc, planeBytes_length]
    rw [plane_at _ _ (by omega), plane_at _ _ (by omega), plane_at _ _ (by omega), plane_at _ _ (by omega)]
    decide +kernel
  have f : planeLen planeBytes = 1576960 := by
    have l : ∀ i, imgFlag planeBytes i = imgFlag planeStart i := fun i => by rw [imgFlag, imgFlag, plane_at _ _ (by omega)]
    simp only [planeLen, planeStop, imgEncrypted, imgSigned, l]
    decide +kernel
  have i : leAt planeBytes 0xA0 8 = 0 := by rw [plane_at _ _ (by omega)]; decide +kernel
  have p' : s.partFits planeBytes = true := by
    simp only [State.partFits] at p ⊢; rw [plane_at _ _ (by omega), plane_at _ _ (by omega)]; exact p
  have g' : s.gradeFits planeBytes = true := by
    simp only [State.gradeFits, byteAt] at g ⊢; rw [plane_at _ _ (by omega), plane_at _ _ (by omega)]; exact g
  have t : (leAt planeBytes 0x18 8).testBit d = true := by rw [plane_at _ _ (by omega)]; exact e d
  simp [State.planeHeader, h, f, i, b, p', g', t]
theorem test_wit_DenLoads_3 : (planeLoader.fetchImage 0x800000000000 1576960 (.ok, planeBytes)) = (.ok, planeBytes) ∧
    planeLoader.planeHeader 47 1576960 planeBytes = 0 :=
  ⟨rfl, plane_header planeLoader rfl (by decide +kernel) (by decide +kernel) 47⟩

/-! ## The gates of the dens, and the Badger (chapters 5 and 6); packets with tag 5 between master and unit of device 0 -/

def opPkt (op : BitVec 4) (src : MasterId) (addr : Addr) (n : Nat) : Packet :=
  { hdr := { opc := op, epoch := false, guar := false, src := src, tag := 5, dstDev := 0, srcDev := 0, addr := addr
             len := BitVec.ofNat 12 (n - 1), err := 0, flow := 0 }
    data := List.replicate n 1 }
def readPkt (src : MasterId) (addr : Addr) (n : Nat) : Packet := { opPkt opRead src addr n with data := [] }
def inReq (p : Packet) : InReq := { pkt := p, off := 0, time := 10 }
def gateState : State :=
  withDens [(2, { isolated := true }), (3, { draining := true }), (4, { inbound := [inReq (readPkt 17 0x1400000000 4)] }),
    (5, { gone := [(0, 17, 5)] })]
def drainState : State := withActions [(1, { state := .armed, cls := 2, target := 7, arg := 2, due := .tick 9 })]
def closedState : State := { gateState with pwr := { mode := .release, blocked := true } }
def freezeState : State :=
  withDens [(1, { freeze := some (.switching, 20), freezeSwap := true }), (2, { freeze := some (.switching, 20) }),
    (3, { freeze := some (.planeActive, 20) }), (4, { freeze := some (.released, 20), held := List.replicate 33 (readPkt 17 0x1400000000 4) }),
    (5, { freeze := some (.released, 20), freezeEnds := false, isolated := true })]
def scrubState : State :=
  { runState with
    bdg := { state := .running, visiting := true, position := 3077, bad := [(planeBase 1 false + 5, 63)]
             map := { cells := [(planeBase 1 false + 5, mapWord 1)] } } }
def midFrame : State := { scrubState with bdg := { scrubState.bdg with word := 62 } }
def reloadState : State := { withDens [(2, { isolated := true })] with bdg := { rlPend := 4 } }
def reloadFrom (a : Addr) : State :=
  { runState with
    bdg := { rlBusy := true, rlDen := 2, sources := { cells := [(4, (true, a))] } }
    brw := { leak := 0, banks := { cells := (List.range 32).map fun i => (i, { state := .on }) } } }
def refetching : State := { runState with bdg := { rfBusy := true } }

theorem test_wit_DenGate_1 : gateState.on = true ∧ (gateState.denAt 1).isolated = false ∧ (gateState.denAt 1).freeze = none ∧
    (gateState.denAt 1).draining = false ∧ (gateState.denAt 1).reservedFlits + rspFlits (readPkt 17 0x40000000 64) ≤ 128 ∧
    gateState.tbs.devNum = 0 ∧ gateState.tagBusy 17 5 = false ∧ (readPkt 17 0x40000000 64).malformed = false ∧
    gateState.noPlace (readPkt 17 0x40000000 64).hdr = false ∧ (readPkt 17 0x40000000 64).hdr.guar = false := by decide
theorem test_wit_DenGate_2 : gateState.writeBlocked (readPkt 17 0x1000000000 64) = false ∧ (gateState.reach .fab).2 = true ∧
    (gateState.denAt 1).inbound.length < 32 ∧ closedState.on = true ∧ closedState.writeBlocked (opPkt opWrite 17 0x1000000000 64) = true ∧
    (gateState.denAt 2).isolated = true ∧ (gateState.denAt 3).isolated = false ∧
    (gateState.denAt 3).draining = true ∧ (gateState.denAt 4).isolated = false ∧ (gateState.denAt 4).freeze = none ∧
    (gateState.denAt 4).inbound = [inReq (readPkt 17 0x1400000000 4)] ∧
    sameReq (readPkt 17 0x1400000000 4) (readPkt 17 0 1) = true ∧ (gateState.denAt 4).rspLimit ≠ 0 ∧ (gateState.denAt 5).inbound = [] ∧
    (gateState.denAt 5).isolated = false ∧ (gateState.denAt 5).freeze = none ∧ (gateState.denAt 5).gone = [(0, 17, 5)] := by decide
theorem test_wit_DenGate_3 : (drainState.drainEdge 7).isSome = true ∧ drainState.time.runs = true ∧ drainState.time.steer = 0 ∧
    (drainState.drainEdge 7).all (fun e => decide (e < 2 ^ 63)) = true := by decide

theorem test_wit_Freeze : (freezeState.denAt 1).freeze = some (.switching, 20) ∧ (freezeState.denAt 1).freezeSwap = true ∧
    (freezeState.denAt 1).activeEmpty = false ∧ (freezeState.denAt 2).freeze = some (.switching, 20) ∧
    (freezeState.denAt 2).freezeSwap = false ∧ (freezeState.denAt 3).freeze = some (.planeActive, 20) ∧
    (freezeState.denAt 4).freeze = some (.released, 20) ∧ (freezeState.denAt 4).freezeEnds = true ∧
    (freezeState.denAt 5).freeze = some (.released, 20) ∧ (freezeState.denAt 5).freezeEnds = false ∧ (freezeState.denAt 5).held = [] := by decide

theorem test_wit_BadgerScrub_1 : busyLoader.den.loadBusy = true ∧ refetching.bdg.rfBusy = true ∧ (reloadFrom 0).bdg.rlBusy = true ∧
    scrubState.on = true ∧ scrubState.bdg.state = .running ∧ scrubState.bdg.idleMode = false ∧ scrubState.den.loadBusy = false ∧
    scrubState.bdg.rlBusy = false ∧ scrubState.bdg.rfBusy = false ∧ scrubState.bdg.position.toNat < 147455 ∧
    scrubState.bdg.visiting = true ∧ scrubState.bdg.position.toNat % 3072 ≠ 0 ∧ scrubState.bdg.position.toNat % 3072 ≠ 3071 ∧
    scrubState.bdg.position = 3077 ∧ (scrubState.denAt 1).swapping = false ∧ scrubState.bdg.segPlane = (scrubState.denAt 1).active ∧
    (∀ i < 64, scrubState.bdg.flips.getD (64 * (planeBase 1 false + 5) + i) 0 = 0) ∧
    mapGood (scrubState.bdg.map.getD (planeBase 1 false + 5) 0) = true ∧ scrubState.bdg.word = 0 ∧ midFrame.bdg.word.toNat + 1 < 64 := by decide
theorem test_wit_BadgerScrub_2 : popCount (BitVec.toNat (1 : BitVec 72)) 72 = 1 ∧ popCount (BitVec.toNat (3 : BitVec 72)) 72 = 2 ∧
    (planeBase 1 scrubState.bdg.segPlane + 5, 63) ∈ scrubState.bdg.bad ∧ (planeBase 1 scrubState.bdg.segPlane + 5, 0) ∉ scrubState.bdg.bad ∧
    scrubState.bdg.policy.getD 1 0 = 0 := by decide

theorem test_wit_Reloads_1 : reloadState.on = true ∧ reloadState.den.loadBusy = false ∧ reloadState.bdg.rlBusy = false ∧
    reloadState.bdg.rlPend.getLsbD 2 = true ∧ (reloadState.denAt 2).isolated = true ∧
    (∀ j < 2, reloadState.bdg.rlPend.getLsbD j = false ∨ (reloadState.denAt j).isolated = false) ∧
    (reloadFrom 0x800000000000).on = true ∧ (reloadFrom 0x800000000000).bdg.rlBusy = true ∧
    runState.admitsWrite 0 0x300100 = true ∧ BitVec.getLsbD (0x80000000 : Word) 31 = true ∧ (3 : MasterId) ≠ 0 ∧
    refetching.on = true ∧ refetching.bdg.rfBusy = true ∧ (1 : Word) ≠ refetching.img.imageCrc := by decide
/-- A fetch that fails at once; a header that fails; a fetch that fails after its first 4,096 bytes, at the Burrow's end. -/
theorem test_wit_Reloads_2 : ((reloadFrom 0x800000000000).fetchImage 0x800000000000 4096 (failedFetch.fetch, failedFetch.bytes)).1 ≠ .ok ∧
    ((reloadFrom 0x800000000000).fetchImage 0x800000000000 4096 (.ok, [])).1 = .ok ∧
    ((reloadFrom 0x800000000000).fetchImage 0x800000000000 (planeLen []) (.ok, [])).1 = .ok ∧
    (reloadFrom 0x800000000000).planeHeader 2 (planeLen []) [] ≠ 0 ∧
    ((reloadFrom 0x43FFF000).fetchImage 0x43FFF000 4096 (.ok, [])).1 = .ok := by decide
theorem fetch_outside (s : State) (a : Addr) (n o : Nat) (p : s.place a = some (.burrow o)) (h : 0x4000000 < o + n) :
    (s.fetchImage a n (.ok, [])).1 ≠ .ok := by
  simp only [State.fetchImage, State.engineRead, p, State.serves, h]
  repeat' split
  all_goals simp_all
theorem test_wit_Reloads_3 : ∀ n, 4096 < n → ((reloadFrom 0x43FFF000).fetchImage 0x43FFF000 n (.ok, [])).1 ≠ .ok :=
  fun n h => fetch_outside _ _ n 0x3FFF000 (by decide) (by omega)
theorem test_wit_Reloads_4 : (reloadFrom 0x800000000000).fetchImage 0x800000000000 (planeLen planeBytes) (.ok, planeBytes) = (.ok, planeBytes) ∧
    (reloadFrom 0x800000000000).planeHeader 2 1576960 planeBytes = 0 :=
  ⟨rfl, plane_header _ rfl (by decide +kernel) (by decide +kernel) 2⟩

theorem test_wit_BucketsAndWatch : scrubState.brw.settLeak ≠ 0 ∧ scrubState.bdg.leak ≠ 0 ∧ ({} : Brw).leak ≠ 0 ∧
    (scrubState.chAt 3).leak ≠ 0 ∧ runState.brw.leak = 0 ∧ runState.admitsWrite 16 0x500044 = true ∧ runState.admitsWrite 16 0x703100 = true ∧
    runState.admitsWrite 16 0x703300 = true ∧ runState.admitsWrite 16 0x80131C = true ∧ scrubState.bdg.state = .running ∧
    scrubState.bdg.exclFrom = none ∧ scrubState.on = true := by decide

/-! ## The network (chapter 7) -/

def farPkt (src : MasterId) : Packet := { hdr := { (readPkt src 0x40000000 64).hdr with dstDev := 9 }, data := [] }
def guarPkt (src : MasterId) : Packet := { hdr := { (readPkt src 0x40000000 64).hdr with guar := true, flow := 1 }, data := [] }
def withFuses (l : List (Nat × Word)) : State := { runState with fus := { latched := { cells := factoryFuses.cells ++ l } } }
def netState : State :=
  { withFuses [(36, 0x1000000), (37, 0x10)] with
    vnx := { tags := { cells := [(3, 0x20)] }, frame := { cells := [(0, 0x30)] }, slot := { cells := [(0, 0x10001)] } } }
def aGuar : InFlight := { pkt := guarPkt 16, chan := .guar 0 false, src := 64 }
def netFull : State := { netState with vnx := { netState.vnx with net := List.replicate 32 aGuar } }
def netFlow : State := { netState with vnx := { netState.vnx with slot := {} } }
def denyState : State := withFuses [(133, 0x400000)]
/-- Master 16's request or response at a unit's port. -/
def atNode (p : Packet) (n : Nat) : InFlight := { pkt := p, src := 64, dst := n, arrived := some 0, sent := 1 }
def landed (p : Packet) (n : Nat) : State := { runState with vnx := { net := [atNode p n], tags := { cells := [(16, 0x20)] } } }
def tcmRead : Packet := readPkt 16 0x50000000 8
def tcmWrite : Packet := opPkt opWrite 16 0x50000000 8
def tcmRsp : Packet := (tcmRead).rsp .ok [1, 2, 3, 4, 5, 6, 7, 8]

theorem test_wit_NetInject_1 : netState.on = true ∧ netState.tagBusy 3 5 = true ∧ netState.tagBusy 16 5 = false ∧
    (readPkt 16 0x40000FF0 64).malformed = true ∧ netState.noPlace (readPkt 16 0x30000000 64).hdr = true ∧
    netState.tbs.devNum = 0 ∧ (readPkt 16 0x40000000 64).malformed = false ∧
    (farPkt 16).malformed = false ∧ netState.denied 16 18 true false = true ∧ (farPkt 16).hdr.reads = true ∧ (farPkt 16).hdr.writes = false ∧
    runState.denied 16 18 true false = false ∧ netState.noPlace (readPkt 16 0x40000000 64).hdr = false ∧
    isControl (readPkt 16 0x40000000 64).hdr = false ∧ isControl (readPkt 16 0 4).hdr = true ∧ netState.noPlace (readPkt 16 0 4).hdr = false ∧
    runState.tagBusy 16 5 = false := by decide
theorem test_wit_NetInject_2 : (guarPkt 16).hdr.guar = true ∧ (guarPkt 16).malformed = false ∧ isControl (guarPkt 16).hdr = false ∧
    netState.noPlace (guarPkt 16).hdr = false ∧ netState.tagBusy 7 5 = false ∧ unitPort (masterNode 7) = none ∧
    unitPort (masterNode 16) = some (0, false) ∧ ((netFlow.reach .noc).1.vnx.flowActive 0 false 1 = false) ∧
    (netFull.reach .noc).1.vnx.flowActive 0 false 1 = true ∧ 32 ≤ ((netFull.reach .noc).1.vnx.net.filter fun x => x.queued 0 false).length ∧
    netFull.tagBusy 16 5 = false ∧ ((netState.reach .noc).1.vnx.net.filter fun x => x.queued 0 false).length < 32 ∧
    (runState.routeOf 9).isSome = false ∧ ({ runState with spn := { runState.spn with route := { cells := [(9, 3)] } } } : State).routeOf 9 = some 3 := by decide

theorem test_wit_NetArrive_1 : runState.on = true ∧ tcmRead.hdr.opc ≠ opRsp ∧ runState.tbs.devNum = tcmRead.hdr.dstDev ∧
    (runState.vnx.net.any fun x => samePacket x.pkt tcmRead && x.remote == false) = false ∧
    ((landed tcmRead mgtNode).atPort fun x => samePacket x.pkt tcmRead && x.remote == false) = some (atNode tcmRead mgtNode) ∧
    ((landed tcmRead mgtNode).reach (unitDomain mgtNode)).2 = true ∧
    ((landed tcmRead mgtNode).reach (unitDomain mgtNode)).1.portFull (atNode tcmRead mgtNode) = false ∧
    tcmRead.receive [(0, 0x1)] = .badHeader 16 5 0 ∧ tcmRead.receive [(0, BitVec.ofNat 576 (1 + 2 ^ 108))] = .lost ∧
    tcmWrite.receive [(1, 0x1)] = .badData ∧
    ((landed tcmWrite mgtNode).atPort fun x => samePacket x.pkt tcmWrite && x.remote == false) = some (atNode tcmWrite mgtNode) := by decide +kernel
theorem test_wit_NetArrive_2 : fuseBit denyState.fus.latched 4278 = true ∧ fuseBit runState.fus.latched 4278 = false ∧
    (readPkt 16 0x40000FF0 64).malformed = true ∧ runState.unitOf tcmRead.hdr = some mgtNode ∧ tcmRead.malformed = false ∧
    runState.unitOf tcmRead.hdr ≠ some csrNode ∧ netState.denied 16 12 true false = true ∧ netState.reqTarget (readPkt 16 0x40000000 64).hdr = 12 ∧
    netState.acting (readPkt 16 0x40000000 64).hdr = 16 ∧ (readPkt 16 0x40000000 64).malformed = false ∧
    netState.unitOf (readPkt 16 0x40000000 64).hdr = some (burrowNode 0) ∧ tcmRead.hdr.isPush = false ∧
    runState.place tcmRead.hdr.addr = some (.tcm 0 0) ∧ runState.reqTarget tcmRead.hdr = 19 ∧ runState.denied 16 19 true true = false ∧
    runState.denied 16 19 true false = false ∧ runState.denied 16 19 false true = false ∧
    protectedWrite 16 0x50000000 = false ∧ runState.acting tcmRead.hdr = 16 ∧ tcmWrite.malformed = false ∧ tcmWrite.hdr.isWrite = true ∧
    runState.unitOf tcmWrite.hdr = some mgtNode ∧
    (opPkt opAdd 16 0x50000000 8).malformed = false ∧ (opPkt opAdd 16 0x50000000 8).hdr.isAtomic = true ∧
    runState.unitOf (opPkt opAdd 16 0x50000000 8).hdr = some mgtNode := by decide
theorem test_wit_NetArrive_3 : runState.place 0x1000000000 = some (.den 0 0) ∧ runState.reqTarget (readPkt 16 0x1000000000 64).hdr = 21 ∧
    runState.denied 16 21 true false = false ∧ (readPkt 16 0x1000000000 64).malformed = false ∧
    runState.unitOf (readPkt 16 0x1000000000 64).hdr = some (gateNode 0) ∧ runState.place 0x40000000 = some (.burrow 0) ∧
    runState.denied 16 12 true false = false ∧ runState.unitOf (readPkt 16 0x40000000 64).hdr = some (burrowNode 0) ∧
    runState.place 0 = some .csr ∧ runState.unitOf (readPkt 16 0 4).hdr = some csrNode ∧ (readPkt 16 0 4).malformed = false ∧
    runState.denied 16 0 true false = false ∧ runState.reqTarget (readPkt 16 0 4).hdr = 0 ∧ (opPkt opPush 16 64 64).hdr.isPush = true ∧
    (opPkt opPush 16 64 64).malformed = false ∧ (runState.unitOf (opPkt opPush 16 64 64).hdr).isSome = true := by decide

/-- The head of router 5's first input waits for an output whose buffer is full. -/
def waitsHere : State :=
  { runState with
    vnx := { links := { cells := [(linkKey ((neighbours 5).getD 0 0) 5 false, { buf := [(0, { id := 0, dst := mgtNode, first := true, last := true })] }),
                                  (linkKey 5 (nextHop 5 mgtNode) false, { held := 0 })] }
             net := [{ atNode tcmRead mgtNode with arrived := none }], cyc := 300 } }

theorem test_wit_NetDeliver_1 : tcmRsp.hdr.opc = opRsp ∧ runState.tbs.devNum = tcmRsp.hdr.dstDev ∧
    (runState.vnx.net.any fun x => samePacket x.pkt tcmRsp) = false ∧
    ((landed tcmRsp (gateNode 0)).atPort fun x => samePacket x.pkt tcmRsp) = some (atNode tcmRsp (gateNode 0)) ∧
    ((landed tcmRsp (gateNode 0)).reach (unitDomain (gateNode 0))).2 = true ∧
    (((landed tcmRsp (gateNode 0)).reach (unitDomain (gateNode 0))).1.takeNet (atNode tcmRsp (gateNode 0))).tagBusy 16 5 = true ∧
    tcmRsp.receive [(1, 0x1)] = .badData ∧ tcmRsp.receive [(0, BitVec.ofNat 576 (1 + 2 ^ 108))] = .lost ∧
    4 ≤ tcmRsp.hdr.src.toNat ∧ ({ landed tcmRsp (gateNode 0) with vnx := { net := [atNode tcmRsp (gateNode 0)] } } : State).tagBusy 16 5 = false ∧
    (({ landed tcmRsp (gateNode 0) with vnx := { net := [atNode tcmRsp (gateNode 0)] } } : State).atPort fun x => samePacket x.pkt tcmRsp).isSome = true := by
  decide +kernel
theorem test_wit_NetDeliver_2 : waitsHere.on = true ∧ waitsHere.boostedAt (.router 5 0 false) = false ∧ waitsHere.waitsAt (.router 5 0 false) = true ∧
    waitsHere.running .noc = true ∧ waitsHere.vnx.ranTo = waitsHere.now ∧ runState.waitsAt (.router 5 0 false) = false ∧
    (waitsHere.advance 1).netNs.boostedAt (.router 5 0 false) = true := by decide +kernel
theorem test_wit_NetDeliver_3 : 256 ≤ waitsHere.vnx.cyc - max 0 0 ∧ linkKey ((neighbours 5).getD 0 0) 5 false / 2 % 256 < 64 := by decide

/-- Table 0 has 48 slots; an edge has come; ring 2 drains, to the end of its cycles. -/
def frameState : State :=
  { runState with
    vnx := { validating := some 3, frame := { cells := [(0, 0x30030), (2, 0x30)] }, draining := 4, switching := 8
             rings := { cells := [(0, { startAt := some 0 }), (2, { drainEnd := 0 })] } } }
/-- Local time 8 ns after the edge. -/
def frameNow : State := { frameState with time := { sysOn := true, now := 20 }, vnx := { frameState.vnx with ranTo := 20 } }

theorem test_wit_SlotTables_1 : runState.admitsWrite 16 0x610000 = true ∧ vnxTable 0x10000 = some 0 ∧ runState.catchUp.vnx.tableLocked 0 = true ∧
    runState.admitsWrite 16 0x611FFC = true ∧ runState.catchUp.vnx.tableLocked 1 = false ∧ runState.admitsWrite 16 0x600014 = true ∧
    runState.now ≤ runState.vnx.ranTo ∧ runState.admitsWrite 16 0x600040 = true ∧ frameState.vnx.validating = some 3 := by decide
theorem test_wit_SlotTables_2 : frameNow.on = true ∧ frameNow.vnx.ranTo = frameNow.now ∧ runState.loopDone = true ∧ runState.vnx.ranTo = runState.now ∧
    frameNow.loopDone = false ∧ frameNow.running .noc = true ∧ (frameNow.advance 1).netNs.begun 0 ≠ frameNow.begun 0 ∧
    frameNow.vnx.draining.getLsbD 0 = false ∧ frameNow.vnx.draining.getLsbD 2 = true ∧
    (frameNow.advance 1).netNs.vnx.draining.getLsbD 2 = false := by decide +kernel

/-! ## Memories (chapters 8 and 9) -/

def pushPkt (src : MasterId) (n : Nat) : Packet := opPkt opPush src 64 n
def pushPktQ (q : Nat) : Packet := opPkt opPush 16 (BitVec.ofNat 48 (q * 2 ^ 38 + 64)) 64

def bankRead : WordAcc := { dev := 0, master := 16, tag := 5, acting := 16, word := 0, base := 0x304, time := 0, op := .read 8 }
def bankState : State :=
  { runState with
    brw := { reqs := [⟨readPkt 16 0x40000304 8, 1, .ok, []⟩]
             banks := { cells := [(3, { state := .on, ctrl := 0, queue := [bankRead] }), (5, { state := .clearing, ctrl := 0 }),
               (6, { state := .on, ctrl := 0 }), (7, { state := .on, ctrl := 0, scrub := 66047, lapStop := none }), (8, { state := .retain, ctrl := 0 })] } } }
def bankWrite : State :=
  { runState with
    brw := { reqs := [⟨opPkt opWrite 16 0x40000304 8, 1, .ok, []⟩]
             banks := { cells := [(3, { state := .on, ctrl := 0, queue := [{ bankRead with op := .write [1, 2, 3, 4, 5, 6, 7, 8] }] })] } } }
def copyState : State := { runState with brw := { copy := some (3, 2, 77, true) } }
def clearState : State := { runState with brw := { clearQ := [4, 9] } }
def clearPoor : State := { runState with pwr := { mode := .run, tokens := 100 }, brw := { clearQ := [4] } }
def clearFull : State :=
  { runState with brw := { clearQ := [9], banks := { cells := (List.range 8).map fun i => (i, { state := .clearing }) } } }

def withMem (c : Channel) (m : MemBlk) : State := { runState with mem := { m with ch := { cells := [(0, { c with cfg := 4, enabled := true })] } } }
def ddrState : State :=
  withMem {} { dq := { cells := [(0, { enable := true, owner := 16 }), (1, { owner := 16 }),
    (2, { enable := true, owner := 16, free := 0, outstanding := 64 })] } }
def ddrWait : State :=
  { runState with
    mem := { ch := { cells := [(0, { cfg := 4, enabled := true, portQ := [readPkt 16 0x10000000040 64] }),
      (1, { cfg := 4, enabled := true, patrolPos := 67108863 })] } } }
def ddrFull : State := withMem { portQ := List.replicate 64 (readPkt 16 0x10000000040 64) } {}
def lineCopy : State := withMem {} { copy := some (0, 3, 9, true), retireBusy := true }
def aPush (read : Bool) (got : Option (List Nat)) : DqPush := { pkt := pushPkt 16 64, isRead := read, off := 64, len := 64, got := got }
def pushState : State :=
  withMem {} { dq := { cells := [(0, { outstanding := 1, free := 63, pushes := [aPush true (some [])] }),
    (1, { outstanding := 1, free := 63, pushes := [aPush false none] }), (2, { outstanding := 1, free := 63, pushes := [aPush true none] })] } }
def offPush : State := { pushState with mem := { pushState.mem with ch := {} } }
def dqState : State :=
  { runState with
    mem := { dq := { cells := [(0, { owner := 16, unread := 1, free := 63, packets := [{ poison := false, data := [1, 2, 3] }],
                                     staleFrom := some 7, staleLimit := 100 }),
      (1, { owner := 16 }), (2, { owner := 16, outstanding := 1, free := 63, pushes := [aPush true none] }),
      (3, { staleFrom := some 7, staleLimit := 100, stale := true, waitFrom := some 9 })] } } }

theorem test_wit_BurrowAccess_1 : (bankState.bankAt 3).state = .on ∧ (bankState.bankAt 3).queued = false ∧
    (bankState.bankAt 3).queue = [bankRead] ∧ bankState.brw.copy = none ∧ bankState.brw.reqs = [⟨readPkt 16 0x40000304 8, 1, .ok, []⟩] ∧
    bankRead.of (readPkt 16 0x40000304 8) = true ∧ (readPkt 16 0x40000304 8).hdr.addr.toNat = 0x40000000 + bankRead.base ∧
    (readPkt 16 0x40000304 8).hdr.bytes ≤ 32 - bankRead.base % 32 ∧ bankRead.op = .read (readPkt 16 0x40000304 8).hdr.bytes ∧
    (readPkt 16 0x40000304 8).hdr.isWrite = false ∧ (bankRead.word, 1) ∉ (bankState.bankAt 3).bad := by decide
theorem test_wit_BurrowAccess_2 : (bankWrite.bankAt 3).state = .on ∧ (bankWrite.bankAt 3).queued = false ∧
    (bankWrite.bankAt 3).queue = [{ bankRead with op := .write [1, 2, 3, 4, 5, 6, 7, 8] }] ∧ bankWrite.brw.copy = none ∧
    bankWrite.brw.reqs = [⟨opPkt opWrite 16 0x40000304 8, 1, .ok, []⟩] ∧ bankRead.of (opPkt opWrite 16 0x40000304 8) = true ∧
    (opPkt opWrite 16 0x40000304 8).hdr.isWrite = true ∧ (opPkt opWrite 16 0x40000304 8).hdr.bytes = 8 ∧
    (opPkt opWrite 16 0x40000304 8).hdr.addr.toNat = 0x40000000 + bankRead.base := by decide
theorem test_wit_BurrowAccess_3 : (bankState.bankAt 5).state = .clearing ∧ bankState.scrubs 6 = true ∧
    (bankState.bankAt 6).scrub < 66047 ∧ bankState.scrubs 7 = true ∧ (bankState.bankAt 7).scrub = 66047 ∧ (bankState.bankAt 7).lapStop = none ∧ bankState.mode = .run ∧
    bankState.scrubs 3 = false := by decide

theorem test_wit_BurrowRemap_1 : runState.admitsWrite 16 0x700040 = true ∧ copyState.brw.copy = some (3, 2, 77, true) ∧
    copyState.evt.fifo.length < 16 ∧ runState.admitsWrite 16 0x70010C = true ∧ field (3 : Word) 0 2 = 3 ∧
    bankState.admitsWrite 16 0x700118 = true ∧ bankState.mode = .run ∧ (bankState.bankAt 6).queued = false ∧
    (bankState.bankAt 6).state = .on ∧ (bankState.bankAt 6).queue = [] ∧ (bankState.bankAt 9).state = .off ∧
    (bankState.bankAt 9).queued = false ∧ bankState.admitsWrite 16 0x700124 = true := by decide
theorem test_wit_BurrowRemap_2 : clearState.brw.clearQ = [4, 9] ∧ clearState.clears < 8 ∧ clearState.pwr.steps = [] ∧
    clearState.affords 250 = true ∧ 250 ≤ clearState.pwr.depth.toNat ∧ clearPoor.brw.clearQ = [4] ∧ clearPoor.clears < 8 ∧
    clearPoor.affords 250 = false ∧ clearFull.brw.clearQ = [9] ∧ 8 ≤ clearFull.clears ∧ (bankState.bankAt 5).state = .clearing ∧
    (bankState.bankAt 5).ctrl = 0 ∧ (bankState.bankAt 8).state = .retain ∧ (bankState.bankAt 8).ctrl = 0 ∧ bankState.mode ≠ .deep := by decide

theorem test_wit_DdrPort_1 : runState.on = true ∧ (runState.chAt (runState.ddrLoc 0).1).enabled = false ∧ ddrState.running .mem = true ∧
    (opPkt opAdd 16 0x10000000040 8).hdr.isRead = false ∧ (opPkt opAdd 16 0x10000000040 8).hdr.isWrite = false ∧
    (ddrState.ddrLoc (ddrOff (readPkt 16 0x10000000040 64).hdr)).1 = 0 ∧ (ddrState.chAt 0).enabled = true ∧
    (ddrState.chAt 0).selfRefresh = false ∧ (ddrState.chAt 0).portQ = [] ∧ (opPkt opWrite 16 0x10000000040 64).hdr.isWrite = true ∧
    (opPkt opWrite 16 0x10000000040 64).hdr.bytes = 64 ∧ (opPkt opWrite 16 0x10000000040 64).data.length = 64 ∧
    ddrOff (opPkt opWrite 16 0x10000000040 64).hdr % 64 = 0 ∧ ddrState.lineHeld 64 64 = false ∧
    ddrState.lineEntry 0 (ddrState.lineOf 64).2 = none ∧ (readPkt 16 0x10000000040 64).hdr.isRead = true := by decide
theorem test_wit_DdrPort_2 : ddrWait.on = true ∧ ddrWait.running .mem = true ∧ (ddrWait.chAt 0).portQ = [readPkt 16 0x10000000040 64] ∧ (readPkt 16 0x10000000040 64).hdr.isPush = false ∧ (ddrWait.chAt 0).enabled = true ∧
    (ddrWait.chAt 0).selfRefresh = false ∧ (ddrWait.ddrLoc 64).1 = 0 ∧ ddrWait.lineHeld 64 64 = false ∧
    ddrWait.lineEntry 0 (ddrWait.lineOf 64).2 = none ∧ (ddrWait.lineOf 64).2 ∉ (ddrWait.chAt 0).bad ∧
    (ddrWait.chAt 0).bad.length < 8 ∧ (ddrWait.chAt 0).patrolEn = true ∧ (ddrWait.chAt 0).patrolPos + 1 < ddrWait.chLines 0 ∧
    (ddrWait.chAt 1).patrolPos + 1 = ddrWait.chLines 1 ∧ (ddrWait.chAt 1).enabled = true ∧ (ddrWait.chAt 1).patrolEn = true ∧
    (ddrWait.chAt 1).selfRefresh = false ∧ (ddrWait.chAt 2).enabled = false := by decide
theorem test_wit_DdrPort_3 : (ddrFull.chAt 0).portQ.length = 64 ∧ (ddrFull.chAt 0).enabled = true ∧ ddrFull.running .mem = true ∧ LineRead.bad [(3, 0), (3, 1)] = true ∧
    (ddrFull.ddrLoc 64).1 = 0 := by decide

theorem test_wit_DdrUpkeep : ddrState.admitsWrite 16 0x800040 = true ∧ ddrState.admitsWrite 16 0x800050 = true ∧
    ddrState.mem.retireBusy = false ∧ ddrState.ddrBytes ≤ 4096 * field (0x3FFFFFF : Word) 0 26 ∧
    4096 * field (5 : Word) 0 26 < ddrState.ddrBytes ∧ ddrState.evt.fifo.length < 16 ∧ lineCopy.mem.interleave = false ∧
    lineCopy.mem.copy = some (0, 3, 9, true) ∧ 9 < lineCopy.chLines 0 ∧ (lineCopy.chAt 0).portQ = [] ∧
    lineCopy.lineEntry 0 9 = none ∧ lineCopy.mem.retireBusy = true ∧ lineCopy.admitsWrite 16 0x800050 = true := by decide

theorem test_wit_DqPushes_1 : ddrState.running .mem = true ∧ (pushPkt 16 64).hdr.isPush = true ∧ field (pushPkt 16 64).hdr.addr 45 3 = 0 ∧
    pushRead (pushPkt 16 64).hdr = false ∧ pushQueue (pushPkt 16 64).hdr = 0 ∧ pushOff (pushPkt 16 64).hdr = 64 ∧
    ddrState.extentOk 64 64 = true ∧ ddrState.extentOk 4096 4097 = false ∧ (pushPkt 16 64).hdr.bytes = 64 ∧
    runState.extentOk 64 64 = false ∧ runState.running .mem = true ∧ runState.on = true ∧
    ddrState.acting (pushPkt 16 64).hdr = 16 ∧ (ddrState.dqAt 0).owner = 16 ∧ ddrState.acting (pushPkt 17 64).hdr ≠ (ddrState.dqAt 0).owner ∧
    ddrState.denied 16 (13 + regionOf ddrState.ddrBounds 0) false true = false ∧ (ddrState.dqAt 0).enable = true ∧
    0 < (ddrState.dqAt 0).free ∧ (ddrState.dqAt 1).enable = false ∧ (ddrState.dqAt 1).owner = 16 ∧
    pushQueue (pushPktQ 1).hdr = 1 ∧ (ddrState.dqAt 2).enable = true ∧ (ddrState.dqAt 2).free = 0 ∧ (ddrState.dqAt 2).owner = 16 ∧
    pushQueue (pushPktQ 2).hdr = 2 := by decide
theorem test_wit_DqPushes_2 : pushState.on = true ∧ pushState.running .mem = true ∧ (offPush.chAt (offPush.ddrLoc 64).1).enabled = false ∧
    (offPush.dqAt 2).pushes = [aPush true none] ∧ (offPush.dqAt 2).waits = [] ∧ offPush.on = true ∧ (pushState.dqAt 0).pushes.map (·.isRead) = [true] ∧ (pushState.dqAt 0).waits = [] ∧
    (pushState.dqAt 0).pushes.map (·.got) = [some []] ∧ (pushState.dqAt 1).pushes.map (·.got) = [none] ∧
    (pushState.dqAt 1).pushes.map (fun x => (x.isRead, x.off, x.len, x.pkt.data.length)) = [(false, 64, 64, 64)] ∧
    (pushState.dqAt 1).ackWrites = false ∧ (pushState.dqAt 1).waits = [] ∧ (pushState.ddrLoc 64).1 = 0 ∧ (pushState.chAt 0).enabled = true ∧
    (pushState.chAt 0).selfRefresh = false ∧ pushState.lineHeld 64 64 = false ∧ pushState.lineEntry 0 (pushState.lineOf 64).2 = none ∧
    (pushState.dqAt 2).pushes.map (fun x => (x.isRead, x.got)) = [(true, none)] ∧
    pushState.admitsWrite 16 0x808040 = true := by decide

theorem test_wit_DqWaitDrop_1 : dqState.on = true ∧ windowQueue (readPkt 16 0x14000000000 100).hdr = 0 ∧
    (readPkt 16 0x14000000000 100).hdr.bytes % 64 ≠ 0 ∧ (readPkt 16 0x14000000000 128).hdr.bytes % 64 = 0 ∧
    dqState.acting (readPkt 17 0x14000000000 128).hdr ≠ (dqState.dqAt 0).owner ∧
    dqState.acting (readPkt 16 0x14000000000 128).hdr = (dqState.dqAt 0).owner ∧ (dqState.dqAt 0).waits = [] ∧
    (dqState.dqAt 0).packets = [{ poison := false, data := [1, 2, 3] }] ∧ windowQueue (readPkt 16 0x14000010000 128).hdr = 1 ∧
    (dqState.dqAt 1).owner = 16 ∧ (dqState.dqAt 1).packets = [] ∧ (dqState.dqAt 1).outstanding = 0 ∧
    windowQueue (readPkt 16 0x14000020000 128).hdr = 2 ∧ (dqState.dqAt 2).owner = 16 ∧ (dqState.dqAt 2).waits = [] ∧
    (dqState.dqAt 2).packets = [] ∧ 0 < (dqState.dqAt 2).outstanding := by decide
theorem test_wit_DqWaitDrop_2 : dqState.admitsWrite 16 0x80800C = true ∧ dqState.admitsWrite 0 0x80800C = true ∧
    (dqState.dqAt 0).staleFrom = some 7 ∧ (dqState.dqAt 0).staleLimit ≠ 0 ∧ (dqState.dqAt 0).stale = false ∧
    (dqState.dqAt 3).staleFrom = some 7 ∧ (dqState.dqAt 3).staleLimit ≠ 0 ∧ (dqState.dqAt 3).stale = true ∧
    (dqState.dqAt 3).waitFrom = some 9 ∧ dqState.nocStopped = false := by decide


/-! ## Lanes and links (chapter 10) -/

def devPkt (src dst : Byte) : Packet := { hdr := { (readPkt 16 0x40000000 64).hdr with srcDev := src, dstDev := dst }, data := [] }
def laneState : State :=
  { runState with
    lan := { quad := { cells := [(2, 2)] }, lanes := { cells := [(0, { training := some 5 }), (8, { retryAt := some 9 }), (9, { eyeBusy := true })] } }
    spn := { links := { cells := [(0, { cfg := 0x100, state := .training })] } } }
def goodInfo : LinkInfo := { dev := 9, link := 0, width := 2, part := 0xFD96, version := 1, caps := 7 }
def wideInfo : LinkInfo := { goodInfo with width := 0 }
def linkState : State :=
  { runState with
    pwr := { mode := .lock }
    spn := { links := { cells := [(1, { cfg := 0x100, state := .aligning }),
               (2, { cfg := 0x140, state := .init, infoSent := true, rxCtl := [(.linkInfo goodInfo, 7), (.linkInfo wideInfo, 8)] }),
               (3, { cfg := 0x100, state := .up, autoRetrain := false, rxTiming := [(.down 1, 0, 9)] }), (4, { cfg := 0x100, enable := false }),
               (5, { cfg := 0x140, state := .init, rxCtl := [(.linkInfo goodInfo, 7)] }),
               (6, { cfg := 0x100, state := .up, rxCtl := [(.linkInfo goodInfo, 7)] })] }
             tracked := [{ srcDev := 0, master := 16, tag := 5, link := 3, pkt := farPkt 16 }] } }
def noPlls : State := { linkState with clk := {} }
def watchedLink : State :=
  { linkState with clk := { runState.clk with watchSpan := true }, tbs := { role := 2 }, spn := { linkState.spn with upstream := some 6 } }

theorem test_wit_Lanes : runState.admitsWrite 16 0x901048 = true ∧ firOk 0x10000 = true ∧ firOk 0x7F000 = false ∧
    (laneState.laneAt 0).training = some 5 ∧ (laneState.linkAt 0).state = .training ∧ 0 ∈ (laneState.linkAt 0).lanes ∧
    (∀ j ∈ (laneState.linkAt 0).lanes, j = 0 ∨ (laneState.laneAt j).trained = true) ∧ (laneState.laneAt 8).retryAt = some 9 ∧
    (laneState.laneAt 8).training = none ∧ laneState.quadMode 2 ≠ 0 ∧ runState.admitsWrite 16 0x901058 = true ∧
    (laneState.laneAt 9).eyeBusy = true := by decide

theorem test_wit_LinkUpDown_1 : (linkState.linkAt 1).state = .aligning ∧ linkState.mode = .lock ∧ (linkState.linkAt 2).state ≠ .aligning ∧
    linkState.ctlAt 1 (.linkInfo goodInfo) = none ∧ linkState.ctlAt 2 (.linkInfo goodInfo) = some 7 ∧ (linkState.linkAt 2).state = .init ∧
    (linkState.linkAt 2).infoSent = true ∧ goodInfo.dev ≠ linkState.tbs.devNum ∧ goodInfo.version = 1 ∧
    goodInfo.width.toNat = field (linkState.linkAt 2).cfg 5 2 ∧ linkState.tbs.elected = false ∧ linkState.tbs.electAt = none ∧
    linkState.tbs.noMaster = none ∧ linkState.ctlAt 2 (.linkInfo wideInfo) = some 8 ∧
    wideInfo.width.toNat ≠ field (linkState.linkAt 2).cfg 5 2 ∧ linkState.ctlAt 5 (.linkInfo goodInfo) = some 7 ∧
    (linkState.linkAt 5).state = .init ∧ (linkState.linkAt 5).infoSent = false ∧ goodInfo.width.toNat = field (linkState.linkAt 5).cfg 5 2 ∧
    linkState.ctlAt 6 (.linkInfo goodInfo) = some 7 ∧ (linkState.linkAt 6).state ≠ .init := by decide
theorem test_wit_LinkUpDown_2 : (linkState.linkAt 3).state = .up ∧ (linkState.linkAt 3).autoRetrain = false ∧ linkState.spn.upstream = none ∧
    linkState.timingAt 3 (.down 1) none = some 9 ∧ linkState.timingAt 3 (.down 2) none = none ∧
    linkState.spn.tracked.map (·.link) = [3] ∧ (linkState.linkAt 4).state = .down ∧ linkState.admitsWrite 16 0xA010C0 = true ∧
    linkState.admitsWrite 16 0xA01100 = true ∧ (linkState.linkAt 3).enable = true ∧ (linkState.linkAt 4).enable = false ∧
    (linkState.linkAt 4).configured = true ∧ linkState.clk.good.getLsbD (16 + field (linkState.linkAt 4).cfg 0 5) = true ∧
    noPlls.clk.good.getLsbD (16 + field (noPlls.linkAt 4).cfg 0 5) = false ∧ (watchedLink.linkAt 6).state = .up ∧
    watchedLink.clk.watchSpan = true ∧ watchedLink.tbs.role = 2 ∧ watchedLink.spn.upstream = some 6 := by decide

def cwState : State :=
  { runState with
    spn := { links := { cells := [(0, { state := .up, replay := [.ctl (.down 1), .ctl (.down 2)], txCtl := [.down 0], ackSeq := 7, expect := 3 }),
      (1, { state := .up, resends := 8, replay := [.ctl (.down 1)] }), (2, { state := .up, txTiming := [.delayReq 1 0], gap := true }),
      (3, { state := .init, txCtl := [.linkInfo (runState.ownInfo 3)] }), (4, { state := .aligning }), (5, { state := .training })] } } }
def aCw (ack seq : BitVec 16) (l : List SeqItem) : Codeword :=
  { num := 0, seq := seq, items := l, timing := some (.delayReq 1 0), ack := ack, nak := false, crReq := 1, crRsp := 0, crGuar := 0 }

theorem test_wit_Codewords_1 : (cwState.linkAt 0).state = .up ∧ (cwState.linkAt 0).resend = 0 ∧ (cwState.linkAt 0).replay.length < 256 ∧
    (cwState.linkAt 0).txTiming = [] ∧ (cwState.linkAt 0).txCtl = [.down 0] ∧ (cwState.linkAt 0).txGuar = [] ∧
    (cwState.linkAt 0).txReq = [] ∧ (cwState.linkAt 0).txRsp = [] ∧ (cwState.linkAt 4).state = .aligning ∧
    (cwState.linkAt 2).state = .up ∧ (cwState.linkAt 2).txTiming = .delayReq 1 0 :: [] ∧ (cwState.linkAt 3).state = .init ∧
    (cwState.linkAt 3).infoOk = false ∧ (cwState.linkAt 3).txCtl = [.linkInfo (cwState.ownInfo 3)] ∧ RsResult.corrected ≠ .failed := by decide
theorem test_wit_Codewords_2 : (cwState.linkAt 0).rxReq = [] ∧ (cwState.linkAt 0).rxRsp = [] ∧ (cwState.linkAt 0).rxGuar = [] ∧
    (aCw 7 3 [.ctl (.down 0)]).nak = false ∧ (aCw 7 3 [.ctl (.down 0)]).ack = (cwState.linkAt 0).ackSeq ∧
    (aCw 7 3 [.ctl (.down 0)]).seq = (cwState.linkAt 0).expect ∧ (aCw 7 4 []).seq = (cwState.linkAt 0).expect + 1 ∧
    (aCw 9 3 []).ack = (cwState.linkAt 0).ackSeq + 2 ∧ 2 ≤ (cwState.linkAt 0).replay.length ∧ (aCw 9 3 []).items = [] ∧
    (aCw 9 3 []).timing = some (.delayReq 1 0) ∧ (aCw 0 0 [.ctl (.linkInfo goodInfo)]).items = [.ctl (.linkInfo goodInfo)] ∧
    (cwState.linkAt 0).replay ≠ [] ∧ (cwState.linkAt 0).gap = false ∧ (cwState.linkAt 0).resends < 8 ∧ (cwState.linkAt 1).state = .up ∧
    (cwState.linkAt 1).replay ≠ [] ∧ (cwState.linkAt 1).gap = false ∧ 8 ≤ (cwState.linkAt 1).resends ∧
    (cwState.linkAt 2).replay = [] ∧ (cwState.linkAt 2).gap = true ∧ (cwState.linkAt 5).state = .training ∧
    (cwState.linkAt 6).state = .down := by decide

def firstElect : Elect := { cand := 1, auto := false, valid := true, hops := 2 }
def aMarker (n : Byte) (tick : BitVec 48) : Marker :=
  { master := n, hops := 1, edge := 15360000, skipped := false, tick := tick, tx := 0, period := 10000, holdLeft := 0 }
def electSpan : State := { linkState with spn := { links := { cells := [(3, { cfg := 0x100, state := .up, rxCtl := [(.elect firstElect, 5)] })] } } }
def followSpan : State :=
  { runState with
    tbs := { role := 2, elected := true, masterNum := 4, timeSet := true, edges := [{ time := 60000, tick := 6, skipped := false, holdLeft := 0, period := 10000 }] }
    clk := { runState.clk with watchSpan := true }
    spn := { upstream := some 1, route := { cells := [(4, 1)] }, seenNotices := [(4, 8)], seenHalts := [(1, 2)]
             links := { cells := [(0, { cfg := 0x100, state := .up, reqAt := some 5, reqId := 9, farCaps := 1, delayAt := some 0
                                        rxTiming := [(.delayReq 3 4, 60, 9), (.delayRsp 9 2 3, 70, 9)] }),
               (1, { cfg := 0x100, state := .up, measured := 8, farCaps := 7
                     rxCtl := [(.holdReq 2 3 false, 9), (.notice 4 8 (.period 100 20000), 9), (.notice 4 3 (.period 100 20000), 9), (.halt 1 2 3 false, 9),
                               (.halt 1 3 0 false, 9)]
                     rxTiming := [(.marker (aMarker 4 6), 15360100, 9), (.marker (aMarker 4 7), 15360100, 9), (.marker (aMarker 9 6), 15360100, 9)] })] } } }
def masterSpan : State := { followSpan with tbs := { role := 1 } }

theorem test_wit_SpanTime_1 : electSpan.ctlAt 3 (.elect firstElect) = some 5 ∧ electSpan.ctlAt 2 (.elect firstElect) = none ∧ electSpan.mode = .lock ∧
    electSpan.tbs.elected = false ∧ firstElect.valid = true ∧ electSpan.tbs.best = none ∧ followSpan.ctlAt 0 (.holdReq 2 3 false) = none ∧
    followSpan.ctlAt 0 (.notice 4 3 (.period 100 20000)) = none ∧ followSpan.timingAt 0 (.marker (aMarker 4 6)) (some 15360100) = none ∧
    followSpan.timingAt 1 (.delayReq 3 4) (some 60) = none ∧ followSpan.timingAt 1 (.delayRsp 9 2 3) (some 70) = none ∧
    followSpan.timingAt 0 (.delayReq 3 4) (some 60) = some 9 ∧ followSpan.timingAt 0 (.delayRsp 9 2 3) (some 70) = some 9 ∧
    (followSpan.linkAt 0).reqAt = some 5 ∧ (followSpan.linkAt 0).reqId = 9 ∧ (followSpan.linkAt 0).measured < 7 ∧
    (followSpan.linkAt 0).state = .up ∧ (followSpan.linkAt 0).farCaps.getLsbD 0 = true := by decide
theorem test_wit_SpanTime_2 : (∀ mk ∈ [aMarker 4 6, aMarker 4 7, aMarker 9 6], followSpan.timingAt 1 (.marker mk) (some 15360100) = some 9) ∧
    (followSpan.linkAt 1).state = .up ∧ followSpan.tbs.elected = true ∧ (aMarker 9 6).master ≠ followSpan.tbs.masterNum ∧
    (aMarker 4 6).master = followSpan.tbs.masterNum ∧ followSpan.tbs.role = 2 ∧ followSpan.tbs.mismatched = false ∧ followSpan.spn.upstream = some 1 ∧
    8 ≤ (followSpan.linkAt 1).measured ∧ followSpan.tbs.timeSet = true ∧ followSpan.tbs.realign = false ∧
    ((followSpan.timingTaken 1 (.marker (aMarker 4 6)) (some 15360100) 9).ownEdge (BitVec.ofNat 64 ((aMarker 4 6).edge.toNat / 256))).map
      (fun b => (b.tick, b.skipped)) = some ((aMarker 4 6).tick, (aMarker 4 6).skipped) ∧
    ((followSpan.timingTaken 1 (.marker (aMarker 4 7)) (some 15360100) 9).ownEdge (BitVec.ofNat 64 ((aMarker 4 7).edge.toNat / 256))).map (·.tick) =
      some 6 := by decide
theorem test_wit_SpanTime_3 : followSpan.ctlAt 1 (.holdReq 2 3 false) = some 9 ∧ followSpan.follower = true ∧
    followSpan.routeLink followSpan.tbs.masterNum = some 1 ∧ (followSpan.linkAt 1).farCaps.getLsbD 0 = true ∧
    masterSpan.ctlAt 1 (.holdReq 2 3 false) = some 9 ∧ masterSpan.follower = false ∧
    followSpan.ctlAt 1 (.notice 4 8 (.period 100 20000)) = some 9 ∧ ((4 : Byte), (8 : BitVec 16)) ∈ followSpan.spn.seenNotices ∧
    followSpan.ctlAt 1 (.notice 4 3 (.period 100 20000)) = some 9 ∧ ((4 : Byte), (3 : BitVec 16)) ∉ followSpan.spn.seenNotices ∧
    (followSpan.ctlTaken 1 (.notice 4 3 (.period 100 20000)) 9).noticeLate (.period 100 20000) = false ∧ followSpan.tbs.sched = [] ∧
    followSpan.tbs.role = 2 ∧ followSpan.clk.watchSpan = true := by decide

def aTracked : Tracked := { srcDev := 0, master := 16, tag := 5, link := 3, pkt := farPkt 16 }
def fullSpan : State := { runState with spn := { tracked := List.replicate 1024 aTracked } }
/-- A packet that waits at a span port, routed to a link, from the fabric or from a link. -/
def toLink (p : Packet) (link via : Option (Fin 8)) : InFlight := { atNode p (spanNode 1) with link := link, via := via }
def spanOut : State := { followSpan with vnx := { net := [toLink (farPkt 16) (some 1) none] } }
/-- Links 1 and 2 are UP and forward only from the fabric (bit 7 of their configuration). -/
def turnSpan : State :=
  { followSpan with spn := { links := { cells := [(1, { cfg := 0x180, state := .up, farCaps := 7 }), (2, { cfg := 0x180, state := .up, farCaps := 7 })] } } }

theorem test_wit_SpanPort_1 : spanOut.on = true ∧ (farPkt 16).hdr.dstDev ≠ spanOut.tbs.devNum ∧ spanOut.running (unitDomain (spanNode 1)) = true ∧
    (spanOut.atPort fun x => samePacket x.pkt (farPkt 16) && x.via == none) = some (toLink (farPkt 16) (some 1) none) ∧
    (farPkt 16).hdr.opc ≠ opRsp ∧ spanOut.spn.tracked.length < 1024 ∧ (spanOut.linkAt 2).state ≠ .up ∧ (spanOut.linkAt 1).state = .up ∧
    (spanOut.linkAt 1).farCaps.getLsbD 1 = true ∧ (spanOut.linkAt 0).farCaps.getLsbD 1 = false ∧ (spanOut.linkAt 1).cfg.getLsbD 7 = false ∧
    (farPkt 16).flitClass = .req ∧ ((farPkt 16).rsp .ok []).flitClass = .rsp ∧ (guarPkt 16).flitClass = .guar ∧
    (turnSpan.linkAt 1).cfg.getLsbD 7 = true ∧ (turnSpan.linkAt 2).cfg.getLsbD 7 = true ∧ (turnSpan.linkAt 2).state = .up ∧
    (turnSpan.linkAt 2).farCaps.getLsbD 1 = true := by decide
theorem test_wit_SpanPort_2 : 1024 ≤ fullSpan.spn.tracked.length ∧ fullSpan.on = true := by decide +kernel
theorem test_wit_SpanPort_3 : followSpan.ctlAt 0 (.halt 1 2 3 false) = none ∧ followSpan.ctlAt 1 (.halt 1 2 3 false) = some 9 ∧
    (1, 2) ∈ followSpan.spn.seenHalts ∧ followSpan.ctlAt 1 (.halt 1 3 0 false) = some 9 ∧ (1, 3) ∉ followSpan.spn.seenHalts ∧
    (turnSpan.linkAt 2).farCaps.getLsbD 2 = true := by decide

/-! ## Ethernet (chapter 11) -/

def txQ (l : List TxFrame) (o : Option (BitVec 64 × List Byte)) : MacQ := { cfg := 0x100001, share := 1, frames := l, openFrame := o }
def rxQ (l : List (List Byte)) : MacQ := { cfg := 0x100001, share := 1, packets := l, staleFrom := some 4, staleLimit := 100 }
/-- Quad 0 is an Ethernet quad with one port, both its directions enabled, and PAUSE. -/
def withMac (p : MacPort) (l : List (Nat × MacQ)) : State :=
  { runState with
    lan := { quad := { cells := [(0, 1)] } }
    mac := { cells := [(0, { config := 1, ports := { cells := [(0, { p with ctrl := 7, up := true })] }, queues := { cells := l } })] } }
def aFrame (ctl : BitVec 64) : TxFrame := { ctl := ctl, data := List.replicate 64 0, desc := none }
def macState : State := withMac {} [(0, txQ [] none), (1, txQ [] (some (64, []))), (2, txQ [aFrame 64] none), (16, rxQ [[1, 2, 3]]), (17, rxQ [])]
def macCtl : State := withMac { ctlOut := [(none, 9)] } []
def macSend : State :=
  withMac { sending := some (2, aFrame 0x4040), pause := some 700, pfc := { cells := [(3, some 9)] }, xoff := 8, txts := [(1, 2, 3, 4)] } []
def macEnd : State := withMac { sendingCtl := some (none, 9), rxOffAt := 100 } []
def noRx : State := { macState with mac := { cells := [(0, { config := 1, ports := { cells := [(0, { up := true })] } })] } }
def dropAll : State :=
  { macState with mac := { cells := [(0, { (macState.macAt 0) with steer := { cells := (List.range 256).map fun i => (i, 16) } })] } }
def rxFull : State := withMac {} [(16, { cfg := 0x1, share := 0 })]
def ctlPkt (n : Nat) : Packet := { opPkt opWrite 16 0x15000002000 8 with data := leBytes n 8 }
def dataPkt (q : Nat) : Packet := opPkt opWrite 16 (BitVec.ofNat 48 (0x15000000000 + q * 0x10000)) 64
/-- A frame with its FCS. -/
def withFcs (l : List Byte) : List Byte := l ++ leBytes (crc32 l) 4
def rxTest : List Byte := withFcs (List.replicate 60 0)
/-- A PAUSE frame (Table 11.7) of n quanta. -/
def pauseTest (n : Nat) : List Byte :=
  withFcs ([0x01, 0x80, 0xC2, 0, 0, 1, 0, 0, 0, 0, 0, 0, 0x88, 0x08, 0, 1] ++ (leBytes n 2).reverse ++ List.replicate 42 0)

theorem test_wit_MacQueues_1 : macState.on = true ∧ macForm (readPkt 16 0x15000000000 64).hdr = none ∧
    macForm (ctlPkt 64).hdr = some .control ∧ macWindow (ctlPkt 64).hdr = (0, 0, 0x2000) ∧ (macState.macQAt 0 0).user = 16 ∧
    macState.acting (ctlPkt 64).hdr = 16 ∧ (macState.macQAt 0 0).openFrame = none ∧ leNat ((ctlPkt 64).data.take 8) = 64 ∧
    64 ≤ macState.txMax 0 0 ∧ (macState.macQAt 0 0).enable = true ∧ macForm (dataPkt 1).hdr = some .data ∧
    macWindow (dataPkt 1).hdr = (0, 1, 0) ∧ (macState.macQAt 0 1).openFrame = some (64, []) ∧ (macState.macQAt 0 1).user = 16 ∧
    (macState.macQAt 0 1).enable = true ∧ (dataPkt 1).data.length = 64 ∧ (macState.macQAt 0 1).room = 4096 := by decide
theorem test_wit_MacQueues_2 : macForm (readPkt 16 0x15000100000 64).hdr = some .wait ∧ macWindow (readPkt 16 0x15000100000 64).hdr = (0, 16, 0) ∧
    (macState.macQAt 0 16).user = 16 ∧ (macState.macQAt 0 16).packets = [[1, 2, 3]] ∧ (macState.macQAt 0 16).staleFrom = some 4 ∧
    (macState.macQAt 0 16).staleLimit ≠ 0 ∧ (macState.macQAt 0 16).stale = false ∧ (macState.macQAt 0 17).packets = [] ∧
    (macState.macQAt 0 17).user = 16 ∧ macForm (opPkt opWrite 16 0x15000100040 8).hdr = some .drop ∧
    macWindow (opPkt opWrite 16 0x15000100040 8).hdr = (0, 16, 64) ∧ macState.admitsWrite 16 0xB00418 = true ∧
    macState.admitsWrite 16 0xB00400 = true ∧ macState.admitsWrite 16 0xB00100 = true := by decide

theorem test_wit_MacFrames_1 : State.reset.macPort 0 0 = false ∧ (State.reset.portAt 0 0).txEn = false ∧ macState.macPort 0 0 = true ∧
    (macState.portAt 0 0).txEn = true ∧ (macState.portAt 0 0).up = true ∧
    (macState.portAt 0 0).localFault = false ∧ (macState.portAt 0 0).remoteFault = false ∧ (macState.portAt 0 0).sending = none ∧
    (macState.portAt 0 0).sendingCtl = none ∧ (macState.portAt 0 0).ctlOut = [] ∧ (macState.macAt 0).nextQueue 0 macState.now = some 2 ∧
    (macState.macQAt 0 2).frames.map (·.tsReject) = [false] ∧ (macCtl.portAt 0 0).ctlOut = [(none, 9)] ∧
    (macCtl.portAt 0 0).txEn = true ∧ macCtl.macPort 0 0 = true ∧ (macEnd.portAt 0 0).sendingCtl = some (none, 9) ∧
    (macSend.portAt 0 0).sendingCtl = none ∧ (macSend.portAt 0 0).sending.map (fun x => (x.2.desc, x.2.ts2)) = some (none, true) := by decide
theorem test_wit_MacFrames_2 : macEnd.macPort 0 0 = true ∧ macEnd.now - (macEnd.macAt 0).wireTime rxTest.length / 256 < (macEnd.portAt 0 0).rxOffAt ∧
    (macState.portAt 0 0).rxOffAt ≤ macState.now - (macState.macAt 0).wireTime rxTest.length / 256 ∧ noRx.macPort 0 0 = true ∧
    (noRx.portAt 0 0).up = true ∧ (noRx.portAt 0 0).rxEn = false ∧ (macState.portAt 0 0).rxEn = true ∧
    (macState.portAt 0 0).rxOnAt ≤ macState.now - (macState.macAt 0).wireTime rxTest.length / 256 ∧ fcsOk (List.replicate 64 0) = false ∧
    fcsOk (withFcs [1]) = true ∧ (withFcs [1]).length < 64 ∧ fcsOk rxTest = true ∧ 64 ≤ rxTest.length ∧
    rxTest.length ≤ (macState.portAt 0 0).maxFrame.toNat := by decide +kernel
theorem test_wit_MacFrames_3 : isMacControl (rxTest.take (rxTest.length - 4)) = false ∧
    ((dropAll.macAt 0).steerAt ((dropAll.macAt 0).steerIndex (rxTest.take 60)) 0).getLsbD 4 = true ∧
    (rxFull.macQAt 0 16).enable = true ∧ (rxFull.macQAt 0 16).room < 64 + (pad64 (rxTest.take 60)).length ∧
    (macState.macQAt 0 16).enable = true ∧ (macState.macAt 0).steerAt ((macState.macAt 0).steerIndex (rxTest.take 60)) 0 = 0 ∧
    64 + (pad64 (rxTest.take 60)).length ≤ (macState.macQAt 0 16).room ∧ fcsOk (pauseTest 5) = true ∧ (pauseTest 5).length = 64 ∧
    isMacControl ((pauseTest 5).take 60) = true ∧ (macState.portAt 0 0).fc = 1 ∧ beNat ((((pauseTest 5).take 60).drop 14).take 2) = 1 ∧
    beNat (((pauseTest 5).take 60).take 6) = 0x0180C2000001 := by decide +kernel
theorem test_wit_MacFrames_4 : (macSend.portAt 0 0).pause = some 700 ∧ (macSend.portAt 0 0).pfc.getD 3 none = some 9 ∧
    (macSend.portAt 0 0).xoff.getLsbD 3 = true ∧ macSend.admitsRead 16 0xB00118 = true ∧ (macSend.portAt 0 0).txts = [(1, 2, 3, 4)] := by decide

/-- A descriptor at 0x40003000 that names 64 bytes at 0x40002000; that at 0x40001000 does so with OWN set too. -/
def ringRam : Memory := [(0x40001001, 0x20), (0x40001003, 0x40), (0x40001006, 0x40), (0x40001007, 0x80), (0x40003001, 0x20), (0x40003003, 0x40)]
def ringState : State :=
  { withMac {} [(0, { cfg := 0x100003, share := 1, engine := true, tail := 1, baseUse := 0x40001000 }),
      (1, { cfg := 0x100003, share := 1, engine := true, tail := 1, baseUse := 0x40003000 }),
      (16, { cfg := 0x100003, share := 1, engine := true, tail := 1, baseUse := 0x40001000, packets := [leBytes 60 2 ++ List.replicate 126 7] })] with
    ram := ringRam
    brw := { leak := 0, banks := { cells := (List.range 32).map fun i => (i, { state := .on }) } } }
def desc (s : State) (i : Nat) (got : Err × List Byte) : Err × List Byte := s.engineRead 7 (BitVec.ofNat 48 ((s.macQAt 0 i).descAddr 0)) 32 got

theorem test_wit_MacRings_1 : (macState.macQAt 0 0).head = (macState.macQAt 0 0).tail ∧ ringState.on = true ∧
    (∀ i ∈ [0, 1, 16], (ringState.macQAt 0 i).enable = true ∧ (ringState.macQAt 0 i).ring = true ∧ (ringState.macQAt 0 i).engine = true ∧
      (ringState.macQAt 0 i).head ≠ (ringState.macQAt 0 i).tail ∧ (ringState.macQAt 0 i).head.toNat = 0) ∧
    (desc ringState 0 (.poison, [])).1 ≠ .ok ∧ (desc ringState 1 (.ok, [])).1 = .ok ∧
    (BitVec.ofNat 64 (leAt (desc ringState 1 (.ok, [])).2 0 8)).getLsbD 63 = false ∧ (desc ringState 0 (.ok, [])).1 = .ok ∧
    BitVec.ofNat 64 (leAt (desc ringState 0 (.ok, [])).2 0 8) = BitVec.ofNat 64 (2 ^ 63 + 64 * 2 ^ 48 + 0x40002000) ∧
    (ringState.engineRead 7 0x40002000 64 (.poison, [])).1 ≠ .ok ∧ (ringState.engineRead 7 0x40002000 64 (.ok, [])).1 = .ok := by decide +kernel
theorem test_wit_MacRings_2 : (ringState.macQAt 0 0).frames = [] ∧ (∀ p < 4, (ringState.portAt 0 p).sending = none) ∧
    64 ≤ (ringState.macQAt 0 0).room ∧ (ringState.macQAt 0 16).packets = [leBytes 60 2 ++ List.replicate 126 7] ∧
    ringState.engineAnswer 7 0x40002000 60 .poison ≠ .ok ∧ ringState.engineAnswer 7 0x40002000 60 .ok = .ok ∧
    ringState.engineAnswer 7 0x40001000 32 .ok = .ok ∧ ringState.place 0x40002000 = some (.burrow 0x2000) ∧
    ringState.place 0x40001000 = some (.burrow 0x1000) ∧ 64 + 60 ≤ (leBytes 60 2 ++ List.replicate 126 7 : List Byte).length := by decide +kernel

/-! ## The host (chapter 12) -/

def withHost (m : Mode) (h : Hst) : State := { runState with pwr := { mode := m }, hst := { h with up := true, bme := true } }
def hostState : State := withHost .run { msixEn := true, pba := { cells := [(5, true)] }, msixTab := { cells := [(23, 1)] } }
def hostLock : State := withHost .lock {}
def hostRead : State :=
  withHost .run { inReads := [{ tag := 3, hostTag := 77, len := 4, time := 100 }], lateTags := 0x200, answers := [(3, .ok, [1, 2, 3, 4])] }
def hostLate : State := withHost .run { lateTags := 0x200, answers := [(9, .ok, [])] }
def anOut : HostOut :=
  { tag := 4, pkt := readPkt 16 0x800000000000 4, data := [], poisoned := false, sent := true, time := 9, expired := none }
def hostFull : State := withHost .run { outs := List.replicate 512 anOut }
def hostOutRead : State := withHost .run { outs := [anOut] }
def hostExpired : State := withHost .run { outs := [{ anOut with expired := some 60, sent := false }] }
def hostDown : State := { runState with hst := { ltrSent := true } }
def hostSleep : State := withHost .sleep {}

theorem test_wit_HostInbound_1 : (State.reset.on && State.reset.hst.up) = false ∧ hostState.on = true ∧ hostState.hst.up = true ∧
    hostState.mode = .run ∧ hostState.hst.inWait = [] ∧ hostState.hst.inWrites = [] ∧ hostState.hostTag = some 0 ∧
    hostState.running .noc = true ∧ hostState.elbRead 0x10 = some 0 ∧ hostLock.on = true ∧ hostLock.hst.up = true ∧
    hostLock.mode ≠ .run ∧ hostLock.mode ≠ .sleep ∧ hostLock.mode ≠ .deep := by decide
theorem test_wit_HostInbound_2 : hostRead.on = true ∧ hostRead.hst.inWait = [] ∧
    hostRead.hst.inReads = [{ tag := 3, hostTag := 77, len := 4, time := 100 }] ∧ hostRead.hst.answers = [(3, .ok, [1, 2, 3, 4])] ∧
    hostRead.hst.lateTags.getLsbD 3 = false ∧ hostLate.on = true ∧ hostLate.hst.inWait = [] ∧ hostLate.hst.answers = [(9, .ok, [])] ∧
    hostLate.hst.lateTags.getLsbD 9 = true ∧ (∀ x ∈ hostLate.hst.answers, x.1 ≠ 3) := by decide

theorem test_wit_HostOutbound : hostState.on = true ∧ (opPkt opAdd 16 0x800000000000 8).hdr.isRead = false ∧
    (opPkt opAdd 16 0x800000000000 8).hdr.isWrite = false ∧ (readPkt 16 0x800000000000 64).hdr.isRead = true ∧
    (opPkt opWrite 16 0x800000000000 64).hdr.isWrite = true ∧ hostState.hst.bme = true ∧ hostState.hst.up = true ∧ hostState.hst.outs = [] ∧
    runState.hst.bme = false ∧ runState.on = true ∧ hostFull.hst.outs.length = 512 ∧ hostFull.on = true ∧ hostFull.hst.bme = true ∧
    hostOutRead.on = true ∧ hostOutRead.hst.up = true ∧
    hostOutRead.hst.outs = [{ tag := 4, pkt := readPkt 16 0x800000000000 4, data := [], poisoned := false, sent := true, time := 9, expired := none }] ∧
    (readPkt 16 0x800000000000 4).hdr.bytes = 4 ∧ hostExpired.hst.outs.map (fun r => (r.expired, r.sent)) = [(some 60, false)] ∧
    hostExpired.on = true ∧ hostExpired.hst.up = true := by decide +kernel

theorem test_wit_HostLink : hostState.on = true ∧ hostState.hst.up = true ∧ hostDown.on = true ∧ hostDown.pwr.pinHigh = true ∧
    hostDown.clk.good.getLsbD 2 = true ∧ hostDown.hst.up = false ∧ hostDown.hst.outs = [] ∧ hostDown.hst.ltrSent = true ∧
    hostState.mode = .run ∧ hostSleep.mode = .sleep ∧ hostSleep.hst.up = true ∧ hostState.admitsWrite 16 0xC00014 = true ∧
    hostState.hst.msixGo 5 = true ∧ hostState.hst.msixGo 6 = false := by decide


/-! ## The Brock pairs, the debug wire, fuses and events (chapters 12 to 16) -/

def runs : Pair := { pc := 0x10000000 }
def coreState : State := { runState with brk := { b := { runs with inMask := 4 } } }
def mbState (st : MbState) (l : List Byte) : State :=
  { withHost .run { mb := st, mbReq := { cells := ((List.range l.length).zip l).filter fun c => decide (c.2 ≠ 0) } } with brk := { b := runs } }
def onBanks : State := { runState with brw := { leak := 0, banks := { cells := (List.range 32).map fun i => (i, { state := .on }) } } }
def mbHalted (l : List Byte) : State := { mbState .busy l with brk := { b := { runs with halted := true } } }
def restartPairs : State := { runState with brk := { a := { restarting := true }, b := { runs with restarting := true } } }
def wireState : State := { runState with brk := { bits := some [true] } }
def wireBreak : State := { runState with brk := { bits := some [] } }
def wireReady : State := { runState with brk := { reply := some [true] } }
def wireLast : State := { runState with brk := { bits := some (msbBits 1 8) } }
def wireReply : State := { runState with brk := { replying := true, reply := some [true, false] } }
def wireAt (b : Pair) (c : Nat) (l : List Bool) : State :=
  { runState with brk := { b := b, frame := some { cmd := BitVec.ofNat 8 c, payload := l } }, ram := [(0x50100000, 0x13)] }
def wireCmd : Nat → List Bool → State := wireAt runs
def wireHalted : Nat → List Bool → State := wireAt { runs with halted := true }
def wireBusy : Nat → List Bool → State := wireAt { runs with feedBusy := true }
def feedState : State :=
  { runState with
    brk := { b := { runs with feedBusy := true
                              fedAnswer := some (.ok, 7)
                              wait := some { tag := 0, addr := 0x80000000, store := false, rd := 5, size := 2, fed := true, next := none } } } }

def fuseState (w : BitVec 9) (m : Word) : State :=
  { runState with fus := { array := { cells := factoryFuses.cells ++ [(134, 0x10)] }, latched := factoryFuses, word := w, mask := m } }
def burnState : State := { fuseState 9 0xF0 with fus := { (fuseState 9 0xF0).fus with burning := some (9, 0xF0) } }
def fencedState : State :=
  let s := withFuses [(36, 0x20002)]
  { s with fus := { s.fus with denyAt := some 0 } }
def logRecord (c : BitVec 16) : EvRec := { stamp := 1, code := c, source := 0, detail := 7 }
def logState : State := { runState with evt := { queue := [logRecord 0x4601], raised := 1 } }
def routedState : State :=
  { runState with
    evt := { queue := [logRecord 0x4601], raised := 1, routeCode := { cells := [(3, 0x80004601)] }, routeOf := { cells := [(3, 0x2807)] } } }
/-- A FAULT waits in DEEP; its class is routed to Brock-A. -/
def deepRouted : State := { runState with pwr := { mode := .deep }, evt := { queue := [logRecord 0x8E01], raised := 1 } }
def ledgerState (u : LedgerUpd) : State := { runState with evt := { fifo := [u] } }
def ledgerFull (u : LedgerUpd) : State := { runState with evt := { fifo := [u], full := true } }
def erasingState : State := { runState with evt := { erasing := true } }

theorem test_wit_Mailbox_1 : hostState.on = true ∧ hostState.hst.up = true ∧ hostState.hst.mb = .idle ∧ (mbState .req []).on = true ∧
    (mbState .req []).hst.up = true ∧ (mbState .req []).hst.mb = .req ∧ (mbState .req []).admitsWrite 0 0xC0A000 = true ∧
    (mbState .busy []).hst.mb = .busy ∧ (mbState .busy []).admitsWrite 0 0xC0A000 = true ∧ (mbState .busy []).on = true ∧
    (mbState .busy []).brk.a.runs = true ∧ (mbState .busy []).brk.b.runs = true ∧ (mbState .busy []).brk.b.wait = none ∧
    (mbState .busy []).brk.b.outMask = 0 ∧ runState.tbs.devNum ≠ 9 ∧ onBanks.place 0x40000000 = some (.burrow 0) ∧
    onBanks.target 0x40000000 (.burrow 0) = some 12 ∧ onBanks.denied 0 12 true false = false ∧ onBanks.serves (.burrow 0) 8 = .ok ∧
    onBanks.engineAnswer 0 0x40000000 8 .ok = .ok ∧ runState.hst.mb ≠ .busy := by decide
theorem test_wit_Mailbox_2 : (mbState .busy [1, 0, 1, 0, 2, 0, 0, 0, 8, 9]).hst.reqNat 2 2 = 1 ∧
    (mbState .busy [1, 0, 1, 0, 2, 0, 0, 0, 8, 9]).hst.reqLen = 2 ∧ (mbState .busy [1, 0, 1, 0, 0, 16, 0, 0]).hst.reqLen = 4096 ∧
    (mbState .busy [1, 0, 5]).hst.reqNat 2 2 = 5 ∧ (mbState .busy [1, 0, 2]).hst.reqNat 2 2 = 2 ∧ (mbState .busy [1, 0, 2]).hst.reqLen = 0 ∧
    (mbState .busy [1, 0, 0x10, 0, 12, 0, 0, 0, 0, 0, 0, 0, 0, 0, 0, 0, 4]).hst.reqLen = 12 ∧
    (mbState .busy [1, 0, 0x10, 0, 12, 0, 0, 0, 0, 0, 0, 0, 0, 0, 0, 0, 4]).hst.reqNat 16 4 = 4 ∧
    (mbState .busy [1, 0, 0x11, 0, 8]).hst.reqNat 2 2 = 0x11 ∧ (mbState .busy [1, 0, 0x11, 0, 8]).hst.reqLen = 8 ∧
    (mbState .busy [1, 0, 0x20, 0, 8, 0, 0, 0, 0, 0, 0, 0, 2]).hst.reqNat 12 4 = 2 ∧
    (mbState .busy [1, 0, 0x21, 0, 8, 0, 0, 0, 0, 0, 0, 0, 2]).hst.reqNat 2 2 = 0x21 ∧
    (mbState .busy [1, 0, 0x30]).hst.reqNat 2 2 = 0x30 ∧ (mbState .busy [1, 0, 0x31]).hst.reqNat 2 2 = 0x31 ∧
    (mbHalted [1, 0, 0x31]).brk.b.halted = true ∧ (mbHalted [1, 0, 0x31]).hst.mb = .busy := by decide

theorem test_wit_Pairs : coreState.on = true ∧ (∀ p < 2, (coreState.pairAt p).runs = true ∧ (coreState.pairAt p).wait = none ∧
    (coreState.pairAt p).restarts = [] ∧ (coreState.pairAt p).outMask = 0) ∧ (∀ p < 2, (restartPairs.pairAt p).restarting = true ∧
    (restartPairs.pairAt p).haltWait = none) ∧ restartPairs.on = true ∧ (State.reset.pairAt 1).inReset = true ∧
    coreState.admitsWrite 0 0xD00004 = true ∧ coreState.mode = .run ∧ coreState.time.sysOn = true := by decide

theorem test_wit_DebugWire_1 : wireState.on = true ∧ wireState.brk.replying = false ∧ wireState.brk.bits = some [true] ∧
    wireState.now + 5000 ≤ wireState.brk.cellAt + 10000 ∧ dwCellOk false (wireState.now + 5000 - wireState.brk.cellAt) = true ∧
    dwCellOk false (wireState.now + 4000 - wireState.brk.cellAt) = false ∧ wireBreak.brk.bits = some [] ∧
    wireBreak.now + 20000 ≤ wireBreak.brk.cellAt + 30000 ∧ dwCellOk true (wireBreak.now + 20000 - wireBreak.brk.cellAt) = true ∧
    wireLast.on = true ∧ wireLast.brk.bits = some (msbBits 1 8) ∧ wireLast.brk.replying = false ∧ runState.brk.bits = none ∧
    runState.brk.replying = false ∧ wireReady.brk.reply = some [true] ∧ wireReady.brk.replying = false ∧ wireReply.brk.replying = true ∧
    wireReply.on = true ∧ wireReply.brk.reply = some [true, false] ∧ wireReply.brk.bits = none ∧
    wireReply.now + 7000 < wireReply.brk.replyAt + 5000 * 2 ∧ wireState.brk.frame = none := by decide
theorem test_wit_DebugWire_2 (c : Nat) (l : List Bool) : (wireCmd c l).brk.frame = some { cmd := BitVec.ofNat 8 c, payload := l } ∧
    (wireCmd c l).brk.b.runs = true ∧ (wireCmd c l).brk.b.wait = none ∧ (wireCmd c l).brk.b.outMask = 0 ∧
    (wireHalted c l).brk.frame = some { cmd := BitVec.ofNat 8 c, payload := l } ∧ (wireHalted c l).brk.b.halted = true ∧
    (wireHalted c l).brk.b.mie = false ∧ (wireHalted c l).brk.b.feedBusy = false ∧ (wireHalted c l).brk.replyFeed = none ∧
    (wireHalted c l).brk.b.outMask = 0 ∧ (wireBusy c l).brk.frame = some { cmd := BitVec.ofNat 8 c, payload := l } ∧
    (wireBusy c l).brk.b.feedBusy = true := ⟨rfl, rfl, rfl, rfl, rfl, rfl, rfl, rfl, rfl, rfl, rfl, rfl⟩
theorem test_wit_DebugWire_3 : (wireHalted 0x12 (msbBits 1 1)).rvFetch 1 ((wireHalted 0x12 (msbBits 1 1)).pairAt 1).pc = some 0x13 ∧
    rvDecode 0x123452B7 = some (.lui 5 0x12345000) := by decide

theorem test_wit_DebugRegs : coreState.on = true ∧ coreState.admitsWrite 16 0xD01040 = true ∧ coreState.brk.b.outMask = 0 ∧
    coreState.brk.b.runs = true ∧ coreState.brk.b.wait = none ∧ (wireHalted 0 []).admitsWrite 16 0xD01040 = true ∧
    (wireHalted 0 []).brk.b.halted = true ∧ (wireHalted 0 []).brk.b.mie = false ∧ (wireHalted 0 []).rvFetch 1 (wireHalted 0 []).brk.b.pc = some 0x13 ∧
    (wireHalted 0 []).admitsWrite 16 0xD01048 = true ∧ (wireBusy 0 []).admitsWrite 16 0xD01048 = true ∧ (wireBusy 0 []).brk.b.feedBusy = true ∧
    (feedState.pairAt 1).feedBusy = true ∧ (feedState.pairAt 1).fedAnswer = some (.ok, 7) ∧ feedState.brk.replyFeed = none ∧ (coreState.pairAt 1).fedAnswer = none ∧
    (wireHalted 0 []).brk.b.outMask = 0 ∧ (wireHalted 0 []).brk.b.feedBusy = false ∧ rvDecode 0x123452B7 = some (.lui 5 0x12345000) ∧ (feedState.pairAt 1).wait = some { tag := 0, addr := 0x80000000, store := false, rd := 5, size := 2, fed := true, next := none } ∧
    coreState.admitsWrite 16 0xD0002C = true ∧ coreState.brk.a.inMask = 0 ∧ coreState.brk.b.inMask &&& BitVec.ofNat 8 (BitVec.toNat (4 : Word)) ≠ 0 ∧
    coreState.brk.xGlobal = false := by decide

theorem test_wit_FuseProgramming : runState.admitsWrite 0 0xF0000C = true ∧ field (0x80005AF3 : Word) 0 16 = 0x5AF3 ∧
    BitVec.getLsbD (0x80005AF3 : Word) 31 = true ∧ lockedState.mode = .lock ∧ lockedState.admitsWrite 0 0xF0000C = true ∧
    runState.mode = .run ∧ runState.fus.burning = none ∧ runState.on = true ∧
    (fuseState 4 1).progRefusal = 0 ∧ (fuseState 3 1).progRefusal = 2 ∧ (fuseState 138 1).progRefusal = 3 ∧ burnState.progRefusal = 1 ∧
    burnState.fus.burning = some (9, 0xF0) ∧ (fuseState 4 1).admitsWrite 0 0xF0000C = true ∧ (fuseState 138 1).mode = .run := by decide

theorem test_wit_EventLog_deep : deepRouted.logging = false ∧ deepRouted.mode = .deep ∧ deepRouted.pwr.waking = none ∧
    (∃ r ∈ deepRouted.evt.queue, (deepRouted.evt.routeFor r.code).getLsbD 12 = true) := by decide
theorem test_wit_EventLog : logState.logging = true ∧ logState.evt.queue = [logRecord 0x4601] ∧ logState.evt.lostSince = 0 ∧
    codeClass (logRecord 0x4601).code ≠ 3 ∧ logState.evt.routeFor 0x4601 = 0 ∧ routedState.logging = true ∧
    routedState.evt.queue = [logRecord 0x4601] ∧ routedState.evt.lostSince = 0 ∧
    routedState.evt.routeFor 0x4601 = BitVec.ofNat 32 (0x2800 + 7) ∧ deepOne.logging = false ∧ runState.logging = true ∧ runState.evt.queue = [] ∧ (State.reset.setMode .off).logging = false ∧ (State.reset.setMode .off).mode ≠ .deep ∧
    runState.admitsWrite 16 0x100005C = true ∧ runState.admitsWrite 16 0x1000060 = true ∧
    runState.admitsRead 16 (BitVec.ofNat 48 0x1010000) = true ∧ runState.admitsRead 16 (BitVec.ofNat 48 (0x1010000 + 16 * 1023)) = true := by decide

theorem test_wit_LedgerWrites : (ledgerState (.brw 3 2 100)).on = true ∧ (ledgerState (.brw 3 2 100)).evt.erasing = false ∧
    (ledgerState (.brw 3 2 100)).evt.fifo = [.brw 3 2 100] ∧ (ledgerState (.brw 3 2 100)).ledgerClosed = false ∧
    (ledgerState (.mem 1 2 100)).evt.fifo = [.mem 1 2 100] ∧ (ledgerState (.retire 9)).evt.fifo = [.retire 9] ∧
    (ledgerFull (.retire 9)).ledgerClosed = true ∧ (ledgerFull (.retire 9)).evt.fifo = [.retire 9] ∧ (ledgerFull (.retire 9)).on = true ∧
    erasingState.on = true ∧ erasingState.evt.erasing = true ∧ runState.admitsWrite 0 0x1000048 = true ∧ runState.on = true ∧
    runState.evt.erasing = false ∧ runState.mode = .run ∧ runState.ledgerDis = false := by decide

theorem test_wit_StepRuns : State.reset.pending = [] := rfl

theorem test_wit_AccessTables : runState.on = true ∧ fencedState.refusesWrite 16 0x58 = true ∧ fencedState.refusesWrite 16 0x1000060 = true ∧
    (∀ a ∈ [0x300100, 0xD00004, 0xF0000C, 0x1000048], runState.refusesWrite 17 (BitVec.ofNat 48 a) = true) ∧ runState.fus.denyAt = none ∧
    fencedState.fus.denyAt = some fencedState.now := by decide

theorem test_wit_CreditsStay : CreditsKept runState ∧ BudgetKept runState :=
  ⟨⟨by decide, fun _ => rfl⟩, show runState.pwr.tokens.toNat ≤ runState.pwr.depth.toNat by decide⟩

theorem test_wit_TokensAndEventsStay : TokensKept runState ∧ EventsKept logState :=
  ⟨⟨by decide, fun _ => ⟨rfl, rfl, rfl⟩⟩, ⟨by decide, by decide⟩⟩

theorem test_wit_FusesOnlyRise : fuseBit State.reset.fus.array 5 = true ∨ fuseBit burnState.fus.array 0 = true ∨
    fuseBit (fuseState 138 1).fus.array 4292 = true := by decide

theorem test_wit_MemoryAndListsStay : MemoryKept runState ∧ ListsBounded runState :=
  ⟨rfl, by decide, fun _ => Nat.zero_le _, by decide, fun _ => Nat.zero_le _, by decide, by decide, by decide⟩

theorem test_wit_PacketRoundTrip : (readPkt 16 0x40000000 64).reqOk = true ∧ (readPkt 16 0x40000000 64).hdr.opc = opRead ∧
    (opPkt opWrite 16 0x40000000 4096).reqOk = true ∧ (opPkt opRsp 16 0 64).data.length = (opPkt opRsp 16 0 64).hdr.bytes ∧
    hdrWellFormed 0 = true := by decide +kernel

theorem test_wit_KeyUnreadable : runState.admitsRead 16 (BitVec.ofNat 48 (0xF01000 + 4 * 150)) = true ∧
    runState.admitsRead 16 (BitVec.ofNat 48 (0xF01000 + 4 * 157)) = true := by decide
theorem test_wit_KeyUnreadable_2 : ∀ i, i < 150 ∨ 157 < i → Tab.getD { cells := [(150, 7)] } i 0 = ({ runState with fus := {} } : State).fus.latched.getD i 0 := by
  intro i h
  have : ¬150 = i := by omega
  simp [Tab.getD, findCell, this]

/-! ## Ill-formed commands are refused by the check of WellFormed -/

theorem test_ill_systemSectionRead : (Instr.systemSectionRead []).wellFormed = false := by decide
theorem test_ill_slotTableRead : (Instr.slotTableRead [] [] tableBytes).wellFormed = false := by decide
theorem test_ill_verifyChecksDone : (Instr.verifyChecksDone true [1, 2, 3]).wellFormed = false := by decide
theorem test_ill_denOutboundRequest : (Instr.denOutboundRequest 3 (readPkt 20 0 4)).wellFormed = false := by decide
theorem test_ill_denInboundRequest : (Instr.denInboundRequest 3 (opPkt opRsp 20 0 4)).wellFormed = false := by decide
theorem test_ill_denInboundResponse : (Instr.denInboundResponse 3 (readPkt 20 0 4) .ok [1]).wellFormed = false := by decide
theorem test_ill_denRspTimeout : (Instr.denRspTimeout 3 (opPkt opRsp 20 0 4)).wellFormed = false := by decide
theorem test_ill_badgerFrame : (Instr.badgerFrame 64 0 [⟨3, 1, false⟩, ⟨3, 2, false⟩]).wellFormed = false := by decide
theorem test_ill_netRequestInject : (Instr.netRequestInject (opPkt opRsp 16 0 4)).wellFormed = false := by decide
theorem test_ill_netRequestTarget : (Instr.netRequestTarget { readPkt 16 0 4 with data := [1] } false [] false).wellFormed = false := by decide
theorem test_ill_netResponseDeliver : (Instr.netResponseDeliver (readPkt 16 0 4) []).wellFormed = false := by decide
theorem test_ill_ddrPortRequest : (Instr.ddrPortRequest { opPkt opWrite 16 0 4 with data := [] }).wellFormed = false := by decide
theorem test_ill_ddrReadReturn : (Instr.ddrReadReturn (readPkt 16 0 4) (List.replicate 66 [])).wellFormed = false := by decide
theorem test_ill_dqPush : (Instr.dqPush (readPkt 16 0 4)).wellFormed = false := by decide
theorem test_ill_dqWait : (Instr.dqWait (opPkt opWrite 16 0 64)).wellFormed = false := by decide
theorem test_ill_dqDrop : (Instr.dqDrop (readPkt 16 0 4)).wellFormed = false := by decide
theorem test_ill_spanPortRequest : (Instr.spanPortRequest { opPkt opWrite 16 0 4 with data := [] } none).wellFormed = false := by decide
theorem test_ill_macTxControlWord : (Instr.macTxControlWord (readPkt 16 0 8)).wellFormed = false := by decide
theorem test_ill_macTxData : (Instr.macTxData (readPkt 16 0 64)).wellFormed = false := by decide
theorem test_ill_rxWait : (Instr.rxWait (opPkt opWrite 16 0 64)).wellFormed = false := by decide
theorem test_ill_rxDrop : (Instr.rxDrop (readPkt 16 0 8)).wellFormed = false := by decide
theorem test_ill_macDescProcess : (Instr.macDescProcess 0 .tx 0 (.ok, []) (.ok, List.replicate 16385 0)).wellFormed = false := by
  decide +kernel
theorem test_ill_hostMemWrite : (Instr.hostMemWrite .bar0 0 (List.replicate 4097 none) false).wellFormed = false := by decide +kernel
theorem test_ill_hostMemRead : (Instr.hostMemRead .bar0 0 4097 1).wellFormed = false := by decide
theorem test_ill_hostOutboundRequest : (Instr.hostOutboundRequest (opPkt opRsp 16 0 4)).wellFormed = false := by decide
theorem test_ill_coreNetworkAccess : (Instr.coreNetworkAccess 0 0x80000002 false 4 5 0).wellFormed = false := by decide
theorem test_ill_tcmParityError : (Instr.tcmParityError 0 0x40000).wellFormed = false := by decide
theorem test_well_formed : (Instr.netRequestInject (readPkt 16 0 4)).wellFormed = true ∧ (Instr.tcmParityError 1 0x40000).wellFormed = true ∧
    (Instr.hostMemRead .bar0 0 4096 1).wellFormed = true := by decide

/-! ## Single steps against values worked out from the manual -/

/-- Table 7.3 by hand: SRC_MASTER 16 at bit 6, TAG 5 at 12, ADDR at 34, LEN 63 at 82, and the copy at 108 and 114. -/
theorem test_header_bits : packHdr (readPkt 16 0x40000000 64).hdr =
    BitVec.ofNat 128 (16 * 2 ^ 6 + 5 * 2 ^ 12 + 0x40000000 * 2 ^ 34 + 63 * 2 ^ 82 + 16 * 2 ^ 108 + 5 * 2 ^ 114) := by decide

/-- The worked example of chapter 14: DENY_WR(3, 13) is word 10, bit 27; DB1 is word 132, bit 21; DB2 and DB3 are word 133,
bits 4 and 13. -/
theorem test_fuses_of_copse : (withFuses [(10, 0x8000000)]).denyWr 3 13 = true ∧ (withFuses [(10, 0x8000000)]).denyRd 3 13 = false ∧
    (withFuses [(132, 0x200000), (133, 0x2010)]).ddrBounds = (1, 64, 64) := by decide

/-- The same example: with the lock of DB2 burned, a further command on DB2 is refused with LOCKED; before, it is taken. -/
theorem test_fuse_lock_of_copse : ({ fuseState 133 0x10 with fus := { (fuseState 133 0x10).fus with array := { cells := [(133, 0x100000)] } } } : State).progRefusal = 3 ∧
    (fuseState 133 0x10).progRefusal = 0 := by decide

/-- One bit burns for 10 µs (R361). -/
theorem test_burn_time : (after (.fusProgComplete 0 0) { burnState with fus := { burnState.fus with burning := some (10, 0x8000000) } }).now = 10000 := by
  decide

/-- Table 8.2: offset 12,641,568 of the Burrow is in bank 5, word 12,345. -/
theorem test_burrow_word_of_copse : 12641568 / 256 % 32 = 5 ∧ wordOf 12641568 = 12345 := by decide

/-- The delay on the cable of chapter 10: 412.500 ns, in 1/256 ns. -/
theorem test_delay_of_copse : ((after (.delayRsp 0 9 (BitVec.ofNat 72 256105664) (BitVec.ofNat 72 256153600) (BitVec.ofNat 72 256259136))
    { followSpan with spn := { links := { cells := [(0, { cfg := 0x100, state := .up, reqAt := some (BitVec.ofNat 72 256000000), reqId := 9, rxTiming := [
        (.delayRsp 9 (BitVec.ofNat 72 256105664) (BitVec.ofNat 72 256153600), BitVec.ofNat 72 256259136, 0)] })] } } }).linkAt 0).sum =
      105600 := by decide

/-- Table 11.7: a PAUSE of 10,000 quanta at 400G lasts 12,800 ns. -/
theorem test_pause_of_copse : ((after (.macControlFrameRx 0 0 (pauseTest 10000) 0 0) macState).portAt 0 0).pause =
    some 12800 := by decide +kernel

/-- R387: the codes of EVT_SOFT. -/
theorem test_soft_codes : [0, 1, 2, 3].map (fun c => (Ev.evtSoft c).code) = [0x1010, 0x5010, 0x9010, 0xD010] := by decide

/-- R390: BRKA is the default route of DEGRADED and FAULT, and nothing of INFO. -/
theorem test_default_routes : ({} : Evt).routeFor 0x8E01 = 0x1000 ∧ ({} : Evt).routeFor 0x0F01 = 0 := by decide

/-- Table 1.7: a hold of 2 makes the next edge a skipped one, and the tick stays. -/
theorem test_hold_skips : (after .tickEdge holdState).tbs.tick = 0 ∧ (after .tickEdge holdState).tbs.holdLeft = 1 ∧
    (after .tickEdge runState).tbs.tick = 1 := by decide +kernel

/-- A table word spells no command, and a step takes the front of the queue. -/
theorem test_step_takes_front : (match step ((runState.setPending [.stepDepthWrite 16 600, .tickEdge])) with
    | .next t => (t.pwr.depth, t.pending) | _ => (0, [])) = (600, [.tickEdge]) := by decide

end Sys2Proof.Tests
end

section
/-! PROOF. Register accesses by width and field type (R6 to R10, R186): what each block makes of a write, what the CSR space
makes of an access, and one register of each type of Table 0.5. -/

namespace Sys2Proof.Machine

/-! ## A block's writes follow its reads -/

/-- A write has an outcome, and it is answered OK or BUSY. -/
inductive Answered : Option (State × Err) → Prop where
  | ok (t : State) : Answered (some (t, .ok))
  | busy (t : State) : Answered (some (t, .busy))

/-- A write agrees with the register it is for (R6, R8). -/
structure WriteFits (r : Option Word) (w : Option (State × Err)) : Prop where
  unassigned : r = none → w = none
  assigned : r ≠ none → Answered w

theorem Answered.ite {c : Prop} [Decidable c] {w u : Option (State × Err)} (hw : c → Answered w) (hu : Answered u) :
    Answered (if c then w else u) := by
  split
  · exact hw ‹c›
  · exact hu

/-- Every block's write begins by asking whether its read is assigned. -/
theorem WriteFits.guarded {r : Option Word} {w : Option (State × Err)} (h : Answered w) :
    WriteFits r (if r.isNone then none else w) := by
  cases r with
  | none => exact ⟨fun _ => rfl, fun h => absurd rfl h⟩
  | some _ => exact ⟨nofun, fun _ => h⟩

/-- A block whose writes are always answered OK fits where its writes are defined. -/
theorem WriteFits.of_ok {r : Option Word} {w : Option State} (h : w.isSome = r.isSome) :
    WriteFits r (w.map fun s => (s, Err.ok)) := by
  cases w with
  | none => exact ⟨fun _ => rfl, fun hr => absurd (by simpa using h.symm) hr⟩
  | some t => exact ⟨fun hr => by simp [hr] at h, fun _ => .ok t⟩

/-- The same where every branch of the write answers OK, so that only whether it has an outcome matters. -/
theorem isSome_guarded {α β : Type} {r : Option α} {w : Option β}
    (h : w.isSome = true := by simp only [apply_ite Option.isSome, Option.isSome_some, ite_self]) :
    (if r.isNone then none else w).isSome = r.isSome := by
  cases r <;> simp [h]

section
variable (s : State) (m : MasterId) (o : Nat) (v : Word)

theorem State.locked_answered (k : State → State) : Answered (some (s.locked m k)) := by
  unfold State.locked
  split
  · exact .ok _
  · exact .busy _

theorem State.slotWrite_answered (h : (vnxTable o).isSome = true) : Answered (some (s.slotWrite o v)) := by
  obtain ⟨t, ht⟩ := Option.isSome_iff_exists.mp h
  simp only [State.slotWrite, ht]
  split
  · exact .busy _
  · exact .ok _

theorem State.dbgFeed_answered (p : Nat) : Answered (some (s.dbgFeed p v)) := by
  unfold State.dbgFeed
  split
  · exact .busy _
  · exact .ok _

theorem State.tbsWrite_fits : WriteFits (s.tbsRead m o) (s.tbsWrite m o v) :=
  .guarded <| .ite (fun _ => .ok _) <| .ite (fun _ => .ok _) <| .ite (fun _ => .ok _) <| .ite (fun _ => .ok _) <|
    .ite (fun _ => s.locked_answered m _) <| .ite (fun _ => s.locked_answered m _) <| .ok _

theorem State.vnxWrite_fits : WriteFits (s.vnxRead o) (s.vnxWrite o v) :=
  .guarded <| .ite (fun _ => .ok _) <| .ite (fun h => s.slotWrite_answered o v h) <| .ok _

theorem State.brkWrite_fits : WriteFits (s.brkRead o) (s.brkWrite o v) := by
  refine .guarded <| .ite (fun _ => .ok _) <| .ite (fun _ => .ok _) <| .ite (fun _ => .ok _) <| .ite (fun _ => .ok _) <|
    .ite (fun _ => ?pair) <| .ok _
  dsimp only
  split
  · exact .ok _
  · exact s.dbgFeed_answered v _
  · exact .ok _
  · exact .ok _
  · exact .ok _

theorem State.clkWrite_isSome : (s.clkWrite o v).isSome = (s.clkRead o).isSome := isSome_guarded

theorem State.pwrWrite_isSome : (s.pwrWrite o v).isSome = (s.pwrRead o).isSome := isSome_guarded

theorem State.cfgWrite_isSome : (s.cfgWrite o v).isSome = (s.cfgRead o).isSome := isSome_guarded

theorem State.denWrite_isSome : (s.denWrite o v).isSome = (s.denRead o).isSome := isSome_guarded

theorem State.bdgWrite_isSome : (s.bdgWrite o v).isSome = (s.bdgRead o).isSome := isSome_guarded

theorem State.brwWrite_isSome : (s.brwWrite o v).isSome = (s.brwRead o).isSome := isSome_guarded

theorem State.memWrite_isSome : (s.memWrite m o v).isSome = (s.memRead o).isSome := isSome_guarded

theorem State.lanWrite_isSome : (s.lanWrite o v).isSome = (s.lanRead o).isSome := isSome_guarded

theorem State.spnWrite_isSome : (s.spnWrite o v).isSome = (s.spnRead o).isSome := isSome_guarded

theorem State.macWrite_isSome : (s.macWrite o v).isSome = (s.macRead o).isSome := isSome_guarded

theorem State.hstWrite_isSome : (s.hstWrite o v).isSome = (s.hstRead o).isSome := isSome_guarded

theorem State.prtWrite_isSome : (s.prtWrite o v).isSome = (s.prtRead o).isSome := isSome_guarded

theorem State.fusWrite_isSome : (s.fusWrite o v).isSome = (s.fusRead o).isSome := isSome_guarded

theorem State.evtWrite_isSome : (s.evtWrite m o v).isSome = (s.evtRead o).isSome := isSome_guarded

theorem State.iocWrite_isSome : (s.iocWrite o v).isSome = (s.iocRead o).isSome := isSome_guarded

end

/-- Whichever block an address is in, a write there fits its register. -/
theorem State.csrPut_fits (s : State) (m : MasterId) (a : Nat) (v : Word) : WriteFits (s.csrRaw m a) (s.csrPut m a v) := by
  unfold State.csrRaw State.csrPut
  generalize a % 0x100000 = o
  match a / 0x100000 with
  | 0 => exact s.tbsWrite_fits m o v
  | 1 => exact .of_ok (s.clkWrite_isSome o v)
  | 2 => exact .of_ok (s.pwrWrite_isSome o v)
  | 3 => exact .of_ok (s.cfgWrite_isSome o v)
  | 4 => exact .of_ok (s.denWrite_isSome o v)
  | 5 => exact .of_ok (s.bdgWrite_isSome o v)
  | 6 => exact s.vnxWrite_fits o v
  | 7 => exact .of_ok (s.brwWrite_isSome o v)
  | 8 => exact .of_ok (s.memWrite_isSome m o v)
  | 9 => exact .of_ok (s.lanWrite_isSome o v)
  | 10 => exact .of_ok (s.spnWrite_isSome o v)
  | 11 => exact .of_ok (s.macWrite_isSome o v)
  | 12 => exact .of_ok (s.hstWrite_isSome o v)
  | 13 => exact s.brkWrite_fits o v
  | 14 => exact .of_ok (s.prtWrite_isSome o v)
  | 15 => exact .of_ok (s.fusWrite_isSome o v)
  | 16 => exact .of_ok (s.evtWrite_isSome m o v)
  | 17 => exact .of_ok (s.iocWrite_isSome o v)
  | n + 18 => exact ⟨fun _ => by simp, fun h => by simp at h⟩

/-! ## Accesses to the CSR space -/

section
variable {s : State} {m : MasterId} {a : Nat} {n : Nat} {v w : Word}

/-- A write of another width, to a misaligned address or where nothing is assigned has no effect (R6, R8). -/
theorem State.csrWrite_decode (h : n ≠ 4 ∨ a % 4 ≠ 0 ∨ s.csrRaw m a = none) : s.csrWrite m a n v = (s, .decode) := by
  obtain hlen | halign | hnone := h
  · exact if_pos (.inl hlen)
  · exact if_pos (.inr halign)
  · simp [State.csrWrite, (s.csrPut_fits m a v).unassigned hnone]

theorem State.csrWrite_of_put {t : State} {e : Err} (halign : a % 4 = 0) (hput : s.csrPut m a v = some (t, e)) :
    s.csrWrite m a 4 v = (t, e) := by
  simp [State.csrWrite, halign, hput]

theorem State.csrRead_decode (h : a % 4 ≠ 0 ∨ s.csrRaw m a = none) : s.csrRead m a = (s, .decode, 0) := by
  obtain halign | hnone := h
  · cases hraw : s.csrRaw m a <;> simp [State.csrRead, hraw, halign]
  · simp [State.csrRead, hnone]

/-- What an aligned read of an assigned register returns: its value, or the value latched for the reader (R9, R15). -/
theorem State.csrRead_answer (halign : a % 4 = 0) (hraw : s.csrRaw m a = some w) :
    (s.csrRead m a).2 = (.ok, if latched a then s.latch.getD (64 * a + m.toNat) 0 else w) := by
  simp [State.csrRead, hraw, halign]

/-- A register that neither reads as latched nor latches another only loses what its read clears (R9). -/
theorem State.csrRead_unlatched (halign : a % 4 = 0) (hlatched : latched a = false) (hlatches : latchOf a = [])
    (hraw : s.csrRaw m a = some w) : s.csrRead m a = (s.csrClear m a, .ok, w) := by
  simp [State.csrRead, hraw, halign, hlatched, hlatches]

end

section
variable {s : State} {m : MasterId} {a : Addr} {len : BitVec 12} {v w : Word}

theorem State.csrAccess_beyond {wr : Bool} {k : State → State} (hon : s.on = true) (ha : 0x1200000 ≤ a.toNat) :
    s.csrAccess m a wr k = s.answer m .decode 0 := by
  rw [State.csrAccess, if_pos ha, State.whenOn_of_on _ hon]

theorem State.csrAccess_admitsWrite {k : State → State} (ha : a.toNat < 0x1200000) (h : s.admitsWrite m a = true) :
    s.csrAccess m a true k = k s := by
  rw [State.csrAccess, if_neg (by omega), State.access_admitsWrite _ h]

theorem State.csrAccess_admitsRead {k : State → State} (ha : a.toNat < 0x1200000) (h : s.admitsRead m a = true) :
    s.csrAccess m a false k = k s := by
  rw [State.csrAccess, if_neg (by omega), State.access_admitsRead _ h]

/-- The two commands that read a register are one access (R10, R15). -/
theorem exec_latchedLoRead_eq_rcRead (m : MasterId) (a : Addr) (s : State) :
    exec (.latchedLoRead m a) s = exec (.rcRead m a) s := rfl

theorem exec_csrWrite_beyond (hon : s.on = true) (ha : 0x1200000 ≤ a.toNat) :
    exec (.csrWrite m a len v) s = .next (s.answer m .decode 0) :=
  congrArg _ (State.csrAccess_beyond hon ha)

theorem exec_rcRead_beyond (hon : s.on = true) (ha : 0x1200000 ≤ a.toNat) :
    exec (.rcRead m a) s = .next (s.answer m .decode 0) :=
  congrArg _ (State.csrAccess_beyond hon ha)

/-- An admitted write within the CSR space is what the space makes of it, answered. -/
theorem exec_csrWrite_eq {t : State} {e : Err} (ha : a.toNat < 0x1200000) (h : s.admitsWrite m a = true)
    (hw : s.csrWrite m a.toNat (len.toNat + 1) v = (t, e)) : exec (.csrWrite m a len v) s = .next (t.answer m e 0) := by
  have hk := State.csrAccess_admitsWrite (k := fun s =>
    (s.csrWrite m a.toNat (len.toNat + 1) v).1.answer m (s.csrWrite m a.toNat (len.toNat + 1) v).2 0) ha h
  rw [hw] at hk
  exact congrArg _ hk

/-- The same of an admitted read. -/
theorem exec_rcRead_eq {x : State × Err × Word} (ha : a.toNat < 0x1200000) (h : s.admitsRead m a = true)
    (hr : s.csrRead m a.toNat = x) : exec (.rcRead m a) s = .next (x.1.answer m x.2.1 x.2.2) := by
  subst hr
  exact congrArg _ (State.csrAccess_admitsRead ha h)

theorem exec_csrWrite_put {t : State} {e : Err} (ha : a.toNat < 0x1200000) (halign : a.toNat % 4 = 0)
    (h : s.admitsWrite m a = true) (hput : s.csrPut m a.toNat v = some (t, e)) :
    exec (.csrWrite m a 3 v) s = .next (t.answer m e 0) :=
  exec_csrWrite_eq ha h (State.csrWrite_of_put halign hput)

/-- RC_READ of a register that has nothing to do with latches: what its address must keep is decided on the number. -/
theorem exec_rcRead_unlatched {t : State}
    (ha : a.toNat < 0x1200000 ∧ a.toNat % 4 = 0 ∧ latched a.toNat = false ∧ latchOf a.toNat = [])
    (h : s.admitsRead m a = true) (hraw : s.csrRaw m a.toNat = some w) (hclear : s.csrClear m a.toNat = t) :
    exec (.rcRead m a) s = .next (t.answer m .ok w) := by
  obtain ⟨hspace, halign, hlatched, hlatches⟩ := ha
  subst hclear
  exact exec_rcRead_eq hspace h (State.csrRead_unlatched halign hlatched hlatches hraw)

end

/-! ## Accesses by width, alignment and assignment (R6, R8, R186) -/

section
variable {s : State} {m : MasterId} {a : Addr} {len : BitVec 12} {v w : Word}

theorem exec_csrWrite_decode (ha : a.toNat < 0x1200000) (h : s.admitsWrite m a = true)
    (hbad : len ≠ 3 ∨ a.toNat % 4 ≠ 0 ∨ s.csrRaw m a.toNat = none) :
    exec (.csrWrite m a len v) s = .next (s.answer m .decode 0) := by
  refine exec_csrWrite_eq ha h (State.csrWrite_decode (hbad.imp_left fun hlen heq => hlen ?_))
  exact BitVec.eq_of_toNat_eq (Nat.succ.inj heq)

theorem exec_rcRead_decode (ha : a.toNat < 0x1200000) (h : s.admitsRead m a = true)
    (hbad : a.toNat % 4 ≠ 0 ∨ s.csrRaw m a.toNat = none) : exec (.rcRead m a) s = .next (s.answer m .decode 0) :=
  exec_rcRead_eq ha h (State.csrRead_decode hbad)

theorem exec_csrWrite_completes (ha : a.toNat < 0x1200000) (halign : a.toNat % 4 = 0) (hraw : s.csrRaw m a.toNat = some w)
    (h : s.admitsWrite m a = true) :
    ∃ t, exec (.csrWrite m a 3 v) s = .next t ∧ (t.bus = ⟨m, .ok, 0⟩ ∨ t.bus = ⟨m, .busy, 0⟩) := by
  have hans := (s.csrPut_fits m a.toNat v).assigned (by simp [hraw])
  generalize hput : s.csrPut m a.toNat v = w at hans
  cases hans with
  | ok t => exact ⟨_, exec_csrWrite_put ha halign h hput, .inl rfl⟩
  | busy t => exact ⟨_, exec_csrWrite_put ha halign h hput, .inr rfl⟩

theorem exec_rcRead_completes (ha : a.toNat < 0x1200000) (halign : a.toNat % 4 = 0) (hraw : s.csrRaw m a.toNat = some w)
    (h : s.admitsRead m a = true) :
    ∃ t, exec (.rcRead m a) s = .next t ∧
      t.bus = ⟨m, .ok, if latched a.toNat then s.latch.getD (64 * a.toNat + m.toNat) 0 else w⟩ := by
  have hans := State.csrRead_answer halign hraw
  refine ⟨_, exec_rcRead_eq ha h rfl, ?_⟩
  rw [hans]
  rfl

end

/-! ## One register of each type of Table 0.5 -/

theorem ofNat_field {k : Nat} (x : BitVec k) (lo n : Nat) : BitVec.ofNat n (field x lo n) = BitVec.extractLsb' lo n x := by
  apply BitVec.eq_of_toNat_eq
  simp [field, bits, Nat.shiftRight_eq_div_pow]

section
variable (s : State) (m : MasterId) (v : Word)

theorem State.csrPut_tbsStatus : s.csrPut m 0x0 v = some (s, .ok) := by
  simp [State.csrPut, State.tbsWrite, State.tbsRead]

theorem State.csrPut_wakeInLo : s.csrPut m 0x200038 v = some (s.modPwr fun p => { p with wakeInLo := v }, .ok) := by
  simp [State.csrPut, State.pwrWrite, State.pwrRead]

theorem State.csrPut_overrunLo :
    s.csrPut m 0x60 v = some (s.modTbs fun t => { t with overrun := t.overrun &&& ~~~BitVec.setWidth 50 v }, .ok) := by
  simp [State.csrPut, State.tbsWrite, State.tbsRead]

theorem State.csrPut_trigCfg0 : s.csrPut m 0x1000400 v = some (s.modPin 0 fun p =>
    { p with evLevel := v.getLsbD 0, evActive := v.getLsbD 1, evWidth := BitVec.extractLsb' 8 16 v }, .ok) := by
  simp [State.csrPut, State.evtWrite, State.evtRead, ofNat_field]

theorem State.csrRaw_overrunCount : s.csrRaw m 0x68 = some s.tbs.overrunCount := rfl
theorem State.csrClear_overrunCount : s.csrClear m 0x68 = s.modTbs fun t => { t with overrunCount := 0 } := rfl
theorem State.csrRaw_evtLost : s.csrRaw m 0x1000010 = some s.evt.lost := rfl
theorem State.csrClear_evtLost : s.csrClear m 0x1000010 = s.modEvt fun e => { e with lost := 0 } := rfl
theorem State.csrRaw_stepWaits : s.csrRaw m 0x20006C = some s.pwr.stepWaits := rfl
theorem State.csrClear_stepWaits : s.csrClear m 0x20006C = s.modPwr fun p => { p with stepWaits := 0 } := rfl
theorem State.csrRaw_actCmd : s.csrRaw m 0x94 = some 0 := rfl
theorem State.csrClear_actCmd : s.csrClear m 0x94 = s := rfl

end

/-! ## The obligation -/

/-- Settles O7: accesses by width, alignment and assignment, then one register of each type of Table 0.5. -/
theorem csrAccess : Obligations.CsrAccess := by
  refine ⟨⟨fun s m a len v ha h hbad => exec_csrWrite_decode ha h hbad, fun s m a ha h hbad => ?decode,
    fun s m a len v hon ha => ?beyond, fun s m a v w ha halign hraw => ⟨exec_csrWrite_completes ha halign hraw, ?reads⟩⟩,
    ?types⟩
  case decode =>
    rw [exec_latchedLoRead_eq_rcRead, and_self]
    exact exec_rcRead_decode ha h hbad
  case beyond =>
    rw [exec_latchedLoRead_eq_rcRead, and_self]
    exact ⟨exec_csrWrite_beyond hon ha, exec_rcRead_beyond hon ha⟩
  case reads =>
    intro h c hc
    have hread := exec_rcRead_completes ha halign hraw h
    obtain rfl | rfl : c = .rcRead m a ∨ c = .latchedLoRead m a := by simpa using hc
    · exact hread
    · rwa [exec_latchedLoRead_eq_rcRead]
  case types =>
    refine ⟨fun s m v h => ?ro, fun s m v h => ?rw, fun s m v h => ?w1c, fun s m h => ?overruns, fun s m h => ?lost,
      fun s m h => ?waits, fun s m h => ?wo, fun s m v h => ?reserved⟩
    case ro => exact exec_csrWrite_put (by decide) (by decide) h (s.csrPut_tbsStatus m v)
    case rw => exact exec_csrWrite_put (by decide) (by decide) h (s.csrPut_wakeInLo m v)
    case w1c => exact exec_csrWrite_put (by decide) (by decide) h (s.csrPut_overrunLo m v)
    case overruns => exact exec_rcRead_unlatched (by decide) h (s.csrRaw_overrunCount m) (s.csrClear_overrunCount m)
    case lost => exact exec_rcRead_unlatched (by decide) h (s.csrRaw_evtLost m) (s.csrClear_evtLost m)
    case waits => exact exec_rcRead_unlatched (by decide) h (s.csrRaw_stepWaits m) (s.csrClear_stepWaits m)
    case wo => exact exec_rcRead_unlatched (by decide) h (s.csrRaw_actCmd m) (s.csrClear_actCmd m)
    case reserved => exact exec_csrWrite_put (by decide) (by decide) h (s.csrPut_trigCfg0 m v)

end Sys2Proof.Machine
end
